-- ==== Sys2Proof/Word.lean ====
section
/-! DEFINITION. The three widths of value the spec gives: the lane word, the byte and the command word. -/

namespace Sys2Proof

/-- A lane word: 64 bits read as 8 lanes of 8 bits (10_state.md R22). -/
abbrev Word := BitVec 64

/-- One lane, or one byte of the buffer: 8 bits, unsigned (00_scope.md R10, R11). -/
abbrev Byte := BitVec 8

/-- A command word: 32 bits (30_encoding.md R70). -/
abbrev Cmd := BitVec 32

end Sys2Proof
end

