-- ==== Sys2Proof/Config.lean ====
section
/-! DEFINITION. The parameters of 00_scope.md R8, the wired constants of 10_state.md R26 and R27, the two reset
parameters of 92_eei_decisions.md D28 at the values this model names, and the printed set-bit table. -/

namespace Sys2Proof.Config

/-- `NLANE` (00_scope.md R8): lanes of a word. -/
def nLane : Nat := 8

/-- `NREG` (00_scope.md R8): lane registers. -/
def nReg : Nat := 32

/-- `BUF_CAP` (00_scope.md R8): bytes of the buffer, `8 * NREG + 7`. -/
def bufCap : Nat := 263

/-- `CMD_CAP` (00_scope.md R8): the largest command-stream length. -/
def cmdCap : Nat := 65535

/-- `SBT_FILL` (00_scope.md R8, 45_lookup.md R165): the filler lane of a set-bit table entry. -/
def sbtFill : Byte := 0xFF#8

/-- `HIGHBITS` (10_state.md R26): bit 7 of every lane. -/
def highBits : Word := 0x8080808080808080#64

/-- `LOWBITS` (10_state.md R26): bit 0 of every lane. -/
def lowBits : Word := 0x0101010101010101#64

/-- `LOW7` (10_state.md R26): bits 6..0 of every lane. -/
def low7 : Word := 0x7F7F7F7F7F7F7F7F#64

/-- `M55` (10_state.md R26). -/
def m55 : Word := 0x5555555555555555#64

/-- `M33` (10_state.md R26). -/
def m33 : Word := 0x3333333333333333#64

/-- `M0F` (10_state.md R26). -/
def m0F : Word := 0x0F0F0F0F0F0F0F0F#64

/-- `GATHER_MUL` (10_state.md R27): bits 0, 9, 18, 27, 36, 45, 54, 63. -/
def gatherMul : Word := 0x8040201008040201#64

/-- `RESET_X` (92_eei_decisions.md D28), one register. DESIGN CHOICE (log 1), unsafe: the spec leaves it open,
this model names zero for `State.reset`. -/
def resetWord : Word := 0#64

/-- `RESET_BUF` (92_eei_decisions.md D28), one byte; also what a byte of the buffer that the list does not hold
reads as. DESIGN CHOICE (log 2), unsafe: the spec leaves it open, this model names zero for `State.reset`. -/
def resetByte : Byte := 0#8

/-- Entries 0 to 15 of the appendix of 45_lookup.md. -/
def sbtRow0 : List Word :=
  [0xFFFFFFFFFFFFFFFF#64, 0xFFFFFFFFFFFFFF00#64, 0xFFFFFFFFFFFFFF01#64, 0xFFFFFFFFFFFF0100#64,
   0xFFFFFFFFFFFFFF02#64, 0xFFFFFFFFFFFF0200#64, 0xFFFFFFFFFFFF0201#64, 0xFFFFFFFFFF020100#64,
   0xFFFFFFFFFFFFFF03#64, 0xFFFFFFFFFFFF0300#64, 0xFFFFFFFFFFFF0301#64, 0xFFFFFFFFFF030100#64,
   0xFFFFFFFFFFFF0302#64, 0xFFFFFFFFFF030200#64, 0xFFFFFFFFFF030201#64, 0xFFFFFFFF03020100#64]

/-- Entries 16 to 31 of the appendix of 45_lookup.md. -/
def sbtRow1 : List Word :=
  [0xFFFFFFFFFFFFFF04#64, 0xFFFFFFFFFFFF0400#64, 0xFFFFFFFFFFFF0401#64, 0xFFFFFFFFFF040100#64,
   0xFFFFFFFFFFFF0402#64, 0xFFFFFFFFFF040200#64, 0xFFFFFFFFFF040201#64, 0xFFFFFFFF04020100#64,
   0xFFFFFFFFFFFF0403#64, 0xFFFFFFFFFF040300#64, 0xFFFFFFFFFF040301#64, 0xFFFFFFFF04030100#64,
   0xFFFFFFFFFF040302#64, 0xFFFFFFFF04030200#64, 0xFFFFFFFF04030201#64, 0xFFFFFF0403020100#64]

/-- Entries 32 to 47 of the appendix of 45_lookup.md. -/
def sbtRow2 : List Word :=
  [0xFFFFFFFFFFFFFF05#64, 0xFFFFFFFFFFFF0500#64, 0xFFFFFFFFFFFF0501#64, 0xFFFFFFFFFF050100#64,
   0xFFFFFFFFFFFF0502#64, 0xFFFFFFFFFF050200#64, 0xFFFFFFFFFF050201#64, 0xFFFFFFFF05020100#64,
   0xFFFFFFFFFFFF0503#64, 0xFFFFFFFFFF050300#64, 0xFFFFFFFFFF050301#64, 0xFFFFFFFF05030100#64,
   0xFFFFFFFFFF050302#64, 0xFFFFFFFF05030200#64, 0xFFFFFFFF05030201#64, 0xFFFFFF0503020100#64]

/-- Entries 48 to 63 of the appendix of 45_lookup.md. -/
def sbtRow3 : List Word :=
  [0xFFFFFFFFFFFF0504#64, 0xFFFFFFFFFF050400#64, 0xFFFFFFFFFF050401#64, 0xFFFFFFFF05040100#64,
   0xFFFFFFFFFF050402#64, 0xFFFFFFFF05040200#64, 0xFFFFFFFF05040201#64, 0xFFFFFF0504020100#64,
   0xFFFFFFFFFF050403#64, 0xFFFFFFFF05040300#64, 0xFFFFFFFF05040301#64, 0xFFFFFF0504030100#64,
   0xFFFFFFFF05040302#64, 0xFFFFFF0504030200#64, 0xFFFFFF0504030201#64, 0xFFFF050403020100#64]

/-- Entries 64 to 79 of the appendix of 45_lookup.md. -/
def sbtRow4 : List Word :=
  [0xFFFFFFFFFFFFFF06#64, 0xFFFFFFFFFFFF0600#64, 0xFFFFFFFFFFFF0601#64, 0xFFFFFFFFFF060100#64,
   0xFFFFFFFFFFFF0602#64, 0xFFFFFFFFFF060200#64, 0xFFFFFFFFFF060201#64, 0xFFFFFFFF06020100#64,
   0xFFFFFFFFFFFF0603#64, 0xFFFFFFFFFF060300#64, 0xFFFFFFFFFF060301#64, 0xFFFFFFFF06030100#64,
   0xFFFFFFFFFF060302#64, 0xFFFFFFFF06030200#64, 0xFFFFFFFF06030201#64, 0xFFFFFF0603020100#64]

/-- Entries 80 to 95 of the appendix of 45_lookup.md. -/
def sbtRow5 : List Word :=
  [0xFFFFFFFFFFFF0604#64, 0xFFFFFFFFFF060400#64, 0xFFFFFFFFFF060401#64, 0xFFFFFFFF06040100#64,
   0xFFFFFFFFFF060402#64, 0xFFFFFFFF06040200#64, 0xFFFFFFFF06040201#64, 0xFFFFFF0604020100#64,
   0xFFFFFFFFFF060403#64, 0xFFFFFFFF06040300#64, 0xFFFFFFFF06040301#64, 0xFFFFFF0604030100#64,
   0xFFFFFFFF06040302#64, 0xFFFFFF0604030200#64, 0xFFFFFF0604030201#64, 0xFFFF060403020100#64]

/-- Entries 96 to 111 of the appendix of 45_lookup.md. -/
def sbtRow6 : List Word :=
  [0xFFFFFFFFFFFF0605#64, 0xFFFFFFFFFF060500#64, 0xFFFFFFFFFF060501#64, 0xFFFFFFFF06050100#64,
   0xFFFFFFFFFF060502#64, 0xFFFFFFFF06050200#64, 0xFFFFFFFF06050201#64, 0xFFFFFF0605020100#64,
   0xFFFFFFFFFF060503#64, 0xFFFFFFFF06050300#64, 0xFFFFFFFF06050301#64, 0xFFFFFF0605030100#64,
   0xFFFFFFFF06050302#64, 0xFFFFFF0605030200#64, 0xFFFFFF0605030201#64, 0xFFFF060503020100#64]

/-- Entries 112 to 127 of the appendix of 45_lookup.md. -/
def sbtRow7 : List Word :=
  [0xFFFFFFFFFF060504#64, 0xFFFFFFFF06050400#64, 0xFFFFFFFF06050401#64, 0xFFFFFF0605040100#64,
   0xFFFFFFFF06050402#64, 0xFFFFFF0605040200#64, 0xFFFFFF0605040201#64, 0xFFFF060504020100#64,
   0xFFFFFFFF06050403#64, 0xFFFFFF0605040300#64, 0xFFFFFF0605040301#64, 0xFFFF060504030100#64,
   0xFFFFFF0605040302#64, 0xFFFF060504030200#64, 0xFFFF060504030201#64, 0xFF06050403020100#64]

/-- Entries 128 to 143 of the appendix of 45_lookup.md. -/
def sbtRow8 : List Word :=
  [0xFFFFFFFFFFFFFF07#64, 0xFFFFFFFFFFFF0700#64, 0xFFFFFFFFFFFF0701#64, 0xFFFFFFFFFF070100#64,
   0xFFFFFFFFFFFF0702#64, 0xFFFFFFFFFF070200#64, 0xFFFFFFFFFF070201#64, 0xFFFFFFFF07020100#64,
   0xFFFFFFFFFFFF0703#64, 0xFFFFFFFFFF070300#64, 0xFFFFFFFFFF070301#64, 0xFFFFFFFF07030100#64,
   0xFFFFFFFFFF070302#64, 0xFFFFFFFF07030200#64, 0xFFFFFFFF07030201#64, 0xFFFFFF0703020100#64]

/-- Entries 144 to 159 of the appendix of 45_lookup.md. -/
def sbtRow9 : List Word :=
  [0xFFFFFFFFFFFF0704#64, 0xFFFFFFFFFF070400#64, 0xFFFFFFFFFF070401#64, 0xFFFFFFFF07040100#64,
   0xFFFFFFFFFF070402#64, 0xFFFFFFFF07040200#64, 0xFFFFFFFF07040201#64, 0xFFFFFF0704020100#64,
   0xFFFFFFFFFF070403#64, 0xFFFFFFFF07040300#64, 0xFFFFFFFF07040301#64, 0xFFFFFF0704030100#64,
   0xFFFFFFFF07040302#64, 0xFFFFFF0704030200#64, 0xFFFFFF0704030201#64, 0xFFFF070403020100#64]

/-- Entries 160 to 175 of the appendix of 45_lookup.md. -/
def sbtRowA : List Word :=
  [0xFFFFFFFFFFFF0705#64, 0xFFFFFFFFFF070500#64, 0xFFFFFFFFFF070501#64, 0xFFFFFFFF07050100#64,
   0xFFFFFFFFFF070502#64, 0xFFFFFFFF07050200#64, 0xFFFFFFFF07050201#64, 0xFFFFFF0705020100#64,
   0xFFFFFFFFFF070503#64, 0xFFFFFFFF07050300#64, 0xFFFFFFFF07050301#64, 0xFFFFFF0705030100#64,
   0xFFFFFFFF07050302#64, 0xFFFFFF0705030200#64, 0xFFFFFF0705030201#64, 0xFFFF070503020100#64]

/-- Entries 176 to 191 of the appendix of 45_lookup.md. -/
def sbtRowB : List Word :=
  [0xFFFFFFFFFF070504#64, 0xFFFFFFFF07050400#64, 0xFFFFFFFF07050401#64, 0xFFFFFF0705040100#64,
   0xFFFFFFFF07050402#64, 0xFFFFFF0705040200#64, 0xFFFFFF0705040201#64, 0xFFFF070504020100#64,
   0xFFFFFFFF07050403#64, 0xFFFFFF0705040300#64, 0xFFFFFF0705040301#64, 0xFFFF070504030100#64,
   0xFFFFFF0705040302#64, 0xFFFF070504030200#64, 0xFFFF070504030201#64, 0xFF07050403020100#64]

/-- Entries 192 to 207 of the appendix of 45_lookup.md. -/
def sbtRowC : List Word :=
  [0xFFFFFFFFFFFF0706#64, 0xFFFFFFFFFF070600#64, 0xFFFFFFFFFF070601#64, 0xFFFFFFFF07060100#64,
   0xFFFFFFFFFF070602#64, 0xFFFFFFFF07060200#64, 0xFFFFFFFF07060201#64, 0xFFFFFF0706020100#64,
   0xFFFFFFFFFF070603#64, 0xFFFFFFFF07060300#64, 0xFFFFFFFF07060301#64, 0xFFFFFF0706030100#64,
   0xFFFFFFFF07060302#64, 0xFFFFFF0706030200#64, 0xFFFFFF0706030201#64, 0xFFFF070603020100#64]

/-- Entries 208 to 223 of the appendix of 45_lookup.md. -/
def sbtRowD : List Word :=
  [0xFFFFFFFFFF070604#64, 0xFFFFFFFF07060400#64, 0xFFFFFFFF07060401#64, 0xFFFFFF0706040100#64,
   0xFFFFFFFF07060402#64, 0xFFFFFF0706040200#64, 0xFFFFFF0706040201#64, 0xFFFF070604020100#64,
   0xFFFFFFFF07060403#64, 0xFFFFFF0706040300#64, 0xFFFFFF0706040301#64, 0xFFFF070604030100#64,
   0xFFFFFF0706040302#64, 0xFFFF070604030200#64, 0xFFFF070604030201#64, 0xFF07060403020100#64]

/-- Entries 224 to 239 of the appendix of 45_lookup.md. -/
def sbtRowE : List Word :=
  [0xFFFFFFFFFF070605#64, 0xFFFFFFFF07060500#64, 0xFFFFFFFF07060501#64, 0xFFFFFF0706050100#64,
   0xFFFFFFFF07060502#64, 0xFFFFFF0706050200#64, 0xFFFFFF0706050201#64, 0xFFFF070605020100#64,
   0xFFFFFFFF07060503#64, 0xFFFFFF0706050300#64, 0xFFFFFF0706050301#64, 0xFFFF070605030100#64,
   0xFFFFFF0706050302#64, 0xFFFF070605030200#64, 0xFFFF070605030201#64, 0xFF07060503020100#64]

/-- Entries 240 to 255 of the appendix of 45_lookup.md. -/
def sbtRowF : List Word :=
  [0xFFFFFFFF07060504#64, 0xFFFFFF0706050400#64, 0xFFFFFF0706050401#64, 0xFFFF070605040100#64,
   0xFFFFFF0706050402#64, 0xFFFF070605040200#64, 0xFFFF070605040201#64, 0xFF07060504020100#64,
   0xFFFFFF0706050403#64, 0xFFFF070605040300#64, 0xFFFF070605040301#64, 0xFF07060504030100#64,
   0xFFFF070605040302#64, 0xFF07060504030200#64, 0xFF07060504030201#64, 0x0706050403020100#64]

/-- The set-bit table as the appendix of 45_lookup.md prints it: entry `v` at index `v` (10_state.md R38). -/
def sbtTable : List Word :=
  sbtRow0 ++ sbtRow1 ++ sbtRow2 ++ sbtRow3 ++ sbtRow4 ++ sbtRow5 ++ sbtRow6 ++ sbtRow7
    ++ sbtRow8 ++ sbtRow9 ++ sbtRowA ++ sbtRowB ++ sbtRowC ++ sbtRowD ++ sbtRowE ++ sbtRowF

end Sys2Proof.Config
end

