-- ==== Sys2Proof/Syntax.lean ====
section
/-! DEFINITION. The names of the command layer: lane registers, control and status registers, fault causes, the
seven formats, the 27 opcodes and the commands themselves with their operands. -/

namespace Sys2Proof

/-- A lane register number 0..31, assembler names `L0`..`L31` (10_state.md R21, 30_encoding.md R76). -/
abbrev Reg := Fin 32

/-- The seven control and status registers (10_state.md R36). -/
inductive Csr where
  | blen | lcnt | consumed | state | cause | fcp | fcmd
  deriving DecidableEq, Repr

/-- The causes of 60_exceptions.md R186; `none` is code 0, "no fault since reset". -/
inductive Cause where
  | none | illegalOpcode | reservedField | illegalCsr | csrRange | fetchOverrun
  deriving DecidableEq, Repr

/-- The formats of 30_encoding.md R72. -/
inductive Format where
  | z | r2 | r3 | r4 | i8 | cRead | cWrite
  deriving DecidableEq, Repr

/-- The 27 assigned opcodes of 30_encoding.md R80, by mnemonic. -/
inductive Op where
  | nop | endRun | rdc | wrc
  | pack | unpack | bci | bcr | ldl | stl
  | eq | lt | gt
  | addw | subw | adds | subs | absd | min | max | avg
  | swapn | revb | popc
  | sel
  | gath | posb
  deriving DecidableEq, Repr

/-- The commands, one constructor per row of the opcode table (30_encoding.md R80), operands in the order of
R84: destination first, then `ra`, `rb`, `rc` or the immediate. -/
inductive Instr where
  /-- `NOP` (46_system.md R176). -/
  | nop
  /-- `END` (46_system.md R177). -/
  | endRun
  /-- `RDC Ld, NAME` (46_system.md R178). -/
  | rdc (rd : Reg) (csr : Csr)
  /-- `WRC NAME, imm9` (46_system.md R179). -/
  | wrc (csr : Csr) (imm9 : BitVec 9)
  /-- `PACK` (40_codec.md R102). -/
  | pack
  /-- `UNPACK` (40_codec.md R104). -/
  | unpack
  /-- `BCI Ld, imm8` (40_codec.md R106). -/
  | bci (rd : Reg) (imm8 : Byte)
  /-- `BCR Ld, La` (40_codec.md R107). -/
  | bcr (rd ra : Reg)
  /-- `LDL Ld, imm8` (40_codec.md R109). -/
  | ldl (rd : Reg) (imm8 : Byte)
  /-- `STL Ls, imm8` (40_codec.md R111). -/
  | stl (rs : Reg) (imm8 : Byte)
  /-- `EQ Ld, La, Lb` (41_comparator.md R122). -/
  | eq (rd ra rb : Reg)
  /-- `LT Ld, La, Lb` (41_comparator.md R124). -/
  | lt (rd ra rb : Reg)
  /-- `GT Ld, La, Lb` (41_comparator.md R126). -/
  | gt (rd ra rb : Reg)
  /-- `ADDW Ld, La, Lb` (42_arithmetic.md R132). -/
  | addw (rd ra rb : Reg)
  /-- `SUBW Ld, La, Lb` (42_arithmetic.md R134). -/
  | subw (rd ra rb : Reg)
  /-- `ADDS Ld, La, Lb` (42_arithmetic.md R136). -/
  | adds (rd ra rb : Reg)
  /-- `SUBS Ld, La, Lb` (42_arithmetic.md R138). -/
  | subs (rd ra rb : Reg)
  /-- `ABSD Ld, La, Lb` (42_arithmetic.md R140). -/
  | absd (rd ra rb : Reg)
  /-- `MIN Ld, La, Lb` (42_arithmetic.md R142). -/
  | min (rd ra rb : Reg)
  /-- `MAX Ld, La, Lb` (42_arithmetic.md R144). -/
  | max (rd ra rb : Reg)
  /-- `AVG Ld, La, Lb` (42_arithmetic.md R146). -/
  | avg (rd ra rb : Reg)
  /-- `SWAPN Ld, La` (43_bitops.md R151). -/
  | swapn (rd ra : Reg)
  /-- `REVB Ld, La` (43_bitops.md R153). -/
  | revb (rd ra : Reg)
  /-- `POPC Ld, La` (43_bitops.md R155). -/
  | popc (rd ra : Reg)
  /-- `SEL Ld, La, Lb, Lc` (44_select.md R161). -/
  | sel (rd ra rb rc : Reg)
  /-- `GATH Ld, La` (45_lookup.md R169). -/
  | gath (rd ra : Reg)
  /-- `POSB Ld, La` (45_lookup.md R166). -/
  | posb (rd ra : Reg)
  deriving DecidableEq, Repr

/-- The opcode of a command. -/
def Instr.op : Instr → Op
  | .nop => .nop
  | .endRun => .endRun
  | .rdc _ _ => .rdc
  | .wrc _ _ => .wrc
  | .pack => .pack
  | .unpack => .unpack
  | .bci _ _ => .bci
  | .bcr _ _ => .bcr
  | .ldl _ _ => .ldl
  | .stl _ _ => .stl
  | .eq _ _ _ => .eq
  | .lt _ _ _ => .lt
  | .gt _ _ _ => .gt
  | .addw _ _ _ => .addw
  | .subw _ _ _ => .subw
  | .adds _ _ _ => .adds
  | .subs _ _ _ => .subs
  | .absd _ _ _ => .absd
  | .min _ _ _ => .min
  | .max _ _ _ => .max
  | .avg _ _ _ => .avg
  | .swapn _ _ => .swapn
  | .revb _ _ => .revb
  | .popc _ _ => .popc
  | .sel _ _ _ _ => .sel
  | .gath _ _ => .gath
  | .posb _ _ => .posb

/-- Pseudo-instruction `MOV Ld, La` is `MAX Ld, La, La` (30_encoding.md R85). -/
def Instr.mov (rd ra : Reg) : Instr := .max rd ra ra

/-- Pseudo-instruction `ZERO Ld` is `BCI Ld, 0` (30_encoding.md R85). -/
def Instr.zero (rd : Reg) : Instr := .bci rd 0x00#8

/-- Pseudo-instruction `ONES Ld` is `BCI Ld, 0xFF` (30_encoding.md R85). -/
def Instr.ones (rd : Reg) : Instr := .bci rd 0xFF#8

end Sys2Proof
end

