-- ==== Sys2Proof/WellFormed.lean ====
section
/-! DEFINITION. Which commands a legal command word can stand for (30_encoding.md R73 steps 3 and 4), and which
command streams the host may load (10_state.md R39). -/

namespace Sys2Proof

/-- The registers `WRC` may write: numbers 0 and 1 (30_encoding.md R79, 46_system.md R179). -/
def Csr.writable : Csr → Bool
  | .blen => true
  | .lcnt => true
  | .consumed => false
  | .state => false
  | .cause => false
  | .fcp => false
  | .fcmd => false

/-- The largest legal value of a register that `WRC` writes (10_state.md R28, R29); 0 for the others. -/
def Csr.maxWrite : Csr → Nat
  | .blen => Config.bufCap
  | .lcnt => Config.nReg
  | .consumed => 0
  | .state => 0
  | .cause => 0
  | .fcp => 0
  | .fcmd => 0

/-- A command some legal word encodes. Register fields, `imm8` and the `csr` of `RDC` are legal by their types
(30_encoding.md R76, R78, R79); `WRC` has the two checks of R73 steps 3 and 4. -/
def Instr.wellFormed : Instr → Bool
  | .wrc csr imm9 => csr.writable && decide (imm9.toNat ≤ csr.maxWrite)
  | .nop => true
  | .endRun => true
  | .rdc _ _ => true
  | .pack => true
  | .unpack => true
  | .bci _ _ => true
  | .bcr _ _ => true
  | .ldl _ _ => true
  | .stl _ _ => true
  | .eq _ _ _ => true
  | .lt _ _ _ => true
  | .gt _ _ _ => true
  | .addw _ _ _ => true
  | .subw _ _ _ => true
  | .adds _ _ _ => true
  | .subs _ _ _ => true
  | .absd _ _ _ => true
  | .min _ _ _ => true
  | .max _ _ _ => true
  | .avg _ _ _ => true
  | .swapn _ _ => true
  | .revb _ _ => true
  | .popc _ _ => true
  | .sel _ _ _ _ => true
  | .gath _ _ => true
  | .posb _ _ => true

/-- A command stream the host may load: `NCMD <= 65535` (10_state.md R39). -/
def progWellFormed (words : List Cmd) : Bool := decide (words.length ≤ Config.cmdCap)

end Sys2Proof
end

