-- ==== Sys2Proof/Decode.lean ====
section
/-! DEFINITION. Command words: the fields of 30_encoding.md R71, the formats of R72, the opcode map of R80, the
decoder of R73 (total, rejecting by the cause R73 names), and after it the encoder. A command word is one 32-bit
value and has no byte order (20_memory.md R53). -/

namespace Sys2Proof

/-! ### Fields (30_encoding.md R71) -/

/-- `op`, bits [31:26]. -/
def opField (w : Cmd) : BitVec 6 := w.extractLsb' 26 6

/-- `rd`, bits [25:21]; the source register of `STL`. -/
def rdField (w : Cmd) : BitVec 5 := w.extractLsb' 21 5

/-- `ra`, bits [20:16]; the `csr` number of format C. -/
def raField (w : Cmd) : BitVec 5 := w.extractLsb' 16 5

/-- `rb`, bits [15:11]. -/
def rbField (w : Cmd) : BitVec 5 := w.extractLsb' 11 5

/-- `rc`, bits [10:6]. -/
def rcField (w : Cmd) : BitVec 5 := w.extractLsb' 6 5

/-- `imm8`, bits [7:0], unsigned (R78). -/
def imm8Field (w : Cmd) : BitVec 8 := w.extractLsb' 0 8

/-- `imm9`, bits [8:0], unsigned (R79). -/
def imm9Field (w : Cmd) : BitVec 9 := w.extractLsb' 0 9

/-- The register a 5-bit field names; every value is legal (R76). -/
def Reg.ofField (f : BitVec 5) : Reg := f.toFin

/-- The 5-bit field that names a register (R76). -/
def Reg.field (r : Reg) : BitVec 5 := BitVec.ofFin r

/-! ### Numbers of the control and status registers (10_state.md R36) -/

/-- The number of a control or status register. -/
def Csr.number : Csr → BitVec 5
  | .blen => 0#5
  | .lcnt => 1#5
  | .consumed => 2#5
  | .state => 3#5
  | .cause => 4#5
  | .fcp => 5#5
  | .fcmd => 6#5

/-- The register of a number; numbers 7..31 name none (R36). -/
def Csr.ofNumber (n : BitVec 5) : Option Csr :=
  [Csr.blen, .lcnt, .consumed, .state, .cause, .fcp, .fcmd].find? (fun c => c.number == n)

/-! ### Opcode map and formats (30_encoding.md R72, R80) -/

/-- The value of `op` of each command (R80). -/
def Op.code : Op → BitVec 6
  | .nop => 0x01#6
  | .endRun => 0x02#6
  | .rdc => 0x03#6
  | .wrc => 0x04#6
  | .pack => 0x08#6
  | .unpack => 0x09#6
  | .bci => 0x0A#6
  | .bcr => 0x0B#6
  | .ldl => 0x0C#6
  | .stl => 0x0D#6
  | .eq => 0x10#6
  | .lt => 0x11#6
  | .gt => 0x12#6
  | .addw => 0x18#6
  | .subw => 0x19#6
  | .adds => 0x1A#6
  | .subs => 0x1B#6
  | .absd => 0x1C#6
  | .min => 0x1D#6
  | .max => 0x1E#6
  | .avg => 0x1F#6
  | .swapn => 0x20#6
  | .revb => 0x21#6
  | .popc => 0x22#6
  | .sel => 0x28#6
  | .gath => 0x30#6
  | .posb => 0x31#6

/-- The format of each command (R80). -/
def Op.format : Op → Format
  | .nop => .z
  | .endRun => .z
  | .rdc => .cRead
  | .wrc => .cWrite
  | .pack => .z
  | .unpack => .z
  | .bci => .i8
  | .bcr => .r2
  | .ldl => .i8
  | .stl => .i8
  | .eq => .r3
  | .lt => .r3
  | .gt => .r3
  | .addw => .r3
  | .subw => .r3
  | .adds => .r3
  | .subs => .r3
  | .absd => .r3
  | .min => .r3
  | .max => .r3
  | .avg => .r3
  | .swapn => .r2
  | .revb => .r2
  | .popc => .r2
  | .sel => .r4
  | .gath => .r2
  | .posb => .r2

/-- The 27 rows of the opcode map, in the order of R80. -/
def Op.all : List Op :=
  [.nop, .endRun, .rdc, .wrc, .pack, .unpack, .bci, .bcr, .ldl, .stl, .eq, .lt, .gt]
    ++ [.addw, .subw, .adds, .subs, .absd, .min, .max, .avg]
    ++ [.swapn, .revb, .popc, .sel, .gath, .posb]

/-- The opcode a value of `op` is assigned to; none for the 37 unassigned values (R80, R81). -/
def Op.ofCode (c : BitVec 6) : Option Op := Op.all.find? (fun o => o.code == c)

/-- The must-be-zero bits of a format, as a mask of the command word (R72, R77). -/
def Format.reserved : Format → Cmd
  | .z => 0x03FFFFFF#32
  | .r2 => 0x0000FFFF#32
  | .r3 => 0x000007FF#32
  | .r4 => 0x0000003F#32
  | .i8 => 0x001FFF00#32
  | .cRead => 0x0000FFFF#32
  | .cWrite => 0x03E0FE00#32

/-- `mask` and `match` of a row of opcode_table.json (30_encoding.md R83): a word has the command's opcode and
clear must-be-zero bits exactly when `w &&& mask = match`. -/
def Op.mask (o : Op) : Cmd := 0xFC000000#32 ||| o.format.reserved

/-- See `Op.mask`. -/
def Op.pattern (o : Op) : Cmd := o.code ++ 0#26

/-! ### The decoder (30_encoding.md R73) -/

/-- Steps 3 and 4 of R73 for `RDC`: cause 3 on a number above 6. -/
def decodeRdc (w : Cmd) : Except Cause Instr :=
  match Csr.ofNumber (raField w) with
  | some c => .ok (.rdc (Reg.ofField (rdField w)) c)
  | none => .error .illegalCsr

/-- Steps 3 and 4 of R73 for `WRC`: cause 3 on a number above 1, then cause 4 on a value above the register's
legal range. -/
def decodeWrc (w : Cmd) : Except Cause Instr :=
  match Csr.ofNumber (raField w) with
  | some c =>
    if c.writable then
      if (imm9Field w).toNat ≤ c.maxWrite then .ok (.wrc c (imm9Field w)) else .error .csrRange
    else .error .illegalCsr
  | none => .error .illegalCsr

/-- The operands of a word that passed steps 1 and 2 of R73. -/
def Op.operands (o : Op) (w : Cmd) : Except Cause Instr :=
  let d := Reg.ofField (rdField w)
  let a := Reg.ofField (raField w)
  let b := Reg.ofField (rbField w)
  let c := Reg.ofField (rcField w)
  match o with
  | .nop => .ok .nop
  | .endRun => .ok .endRun
  | .rdc => decodeRdc w
  | .wrc => decodeWrc w
  | .pack => .ok .pack
  | .unpack => .ok .unpack
  | .bci => .ok (.bci d (imm8Field w))
  | .bcr => .ok (.bcr d a)
  | .ldl => .ok (.ldl d (imm8Field w))
  | .stl => .ok (.stl d (imm8Field w))
  | .eq => .ok (.eq d a b)
  | .lt => .ok (.lt d a b)
  | .gt => .ok (.gt d a b)
  | .addw => .ok (.addw d a b)
  | .subw => .ok (.subw d a b)
  | .adds => .ok (.adds d a b)
  | .subs => .ok (.subs d a b)
  | .absd => .ok (.absd d a b)
  | .min => .ok (.min d a b)
  | .max => .ok (.max d a b)
  | .avg => .ok (.avg d a b)
  | .swapn => .ok (.swapn d a)
  | .revb => .ok (.revb d a)
  | .popc => .ok (.popc d a)
  | .sel => .ok (.sel d a b c)
  | .gath => .ok (.gath d a)
  | .posb => .ok (.posb d a)

/-- R73: opcode (cause 1), must-be-zero bits (cause 2), register number (cause 3), value range (cause 4); the first
check that fails decides the cause. Total, and a function of the word alone. -/
def decode (w : Cmd) : Except Cause Instr :=
  match Op.ofCode (opField w) with
  | none => .error .illegalOpcode
  | some o => if w &&& o.format.reserved = 0#32 then o.operands w else .error .reservedField

/-- The decoder on a row of opcode_table.json: the low `nbits` bits of `w` as one command word. A command is one
32-bit word (R70), so more than 32 bits are no command (log 17). -/
def decodeTableWord (nbits w : Nat) : Option Instr :=
  if nbits ≤ 32 then
    match decode (BitVec.ofNat 32 (w % 2 ^ nbits)) with
    | .ok i => some i
    | .error _ => none
  else none

/-! ### The encoder (30_encoding.md R72) -/

/-- Format Z. -/
def encodeZ (o : Op) : Cmd := o.code ++ 0#26

/-- Format R2. -/
def encodeR2 (o : Op) (rd ra : Reg) : Cmd := o.code ++ rd.field ++ ra.field ++ 0#16

/-- Format R3. -/
def encodeR3 (o : Op) (rd ra rb : Reg) : Cmd := o.code ++ rd.field ++ ra.field ++ rb.field ++ 0#11

/-- Format R4. -/
def encodeR4 (o : Op) (rd ra rb rc : Reg) : Cmd :=
  o.code ++ rd.field ++ ra.field ++ rb.field ++ rc.field ++ 0#6

/-- Format I8. -/
def encodeI8 (o : Op) (rd : Reg) (imm8 : Byte) : Cmd := o.code ++ rd.field ++ 0#13 ++ imm8

/-- Format C (read). -/
def encodeCRead (o : Op) (rd : Reg) (csr : Csr) : Cmd := o.code ++ rd.field ++ csr.number ++ 0#16

/-- Format C (write). -/
def encodeCWrite (o : Op) (csr : Csr) (imm9 : BitVec 9) : Cmd :=
  o.code ++ 0#5 ++ csr.number ++ 0#7 ++ imm9

/-- The word of a command. -/
def encode : Instr → Cmd
  | .nop => encodeZ .nop
  | .endRun => encodeZ .endRun
  | .rdc rd csr => encodeCRead .rdc rd csr
  | .wrc csr imm9 => encodeCWrite .wrc csr imm9
  | .pack => encodeZ .pack
  | .unpack => encodeZ .unpack
  | .bci rd imm8 => encodeI8 .bci rd imm8
  | .bcr rd ra => encodeR2 .bcr rd ra
  | .ldl rd imm8 => encodeI8 .ldl rd imm8
  | .stl rs imm8 => encodeI8 .stl rs imm8
  | .eq rd ra rb => encodeR3 .eq rd ra rb
  | .lt rd ra rb => encodeR3 .lt rd ra rb
  | .gt rd ra rb => encodeR3 .gt rd ra rb
  | .addw rd ra rb => encodeR3 .addw rd ra rb
  | .subw rd ra rb => encodeR3 .subw rd ra rb
  | .adds rd ra rb => encodeR3 .adds rd ra rb
  | .subs rd ra rb => encodeR3 .subs rd ra rb
  | .absd rd ra rb => encodeR3 .absd rd ra rb
  | .min rd ra rb => encodeR3 .min rd ra rb
  | .max rd ra rb => encodeR3 .max rd ra rb
  | .avg rd ra rb => encodeR3 .avg rd ra rb
  | .swapn rd ra => encodeR2 .swapn rd ra
  | .revb rd ra => encodeR2 .revb rd ra
  | .popc rd ra => encodeR2 .popc rd ra
  | .sel rd ra rb rc => encodeR4 .sel rd ra rb rc
  | .gath rd ra => encodeR2 .gath rd ra
  | .posb rd ra => encodeR2 .posb rd ra

end Sys2Proof
end

