-- ==== Sys2Proof/Machine/Lanes.lean ====
section
/-! DEFINITION. Lanes of a word and the byte order of the codec (00_scope.md R10, 20_memory.md R52): lane `i` is
bits `[8i+7:8i]`, and byte `j` of an 8-byte group is lane `j`. -/

namespace Sys2Proof.Machine

/-- `lane(w, i)` (00_scope.md R10). -/
def lane (w : Word) (i : Fin 8) : Byte := w.extractLsb' (8 * i.val) 8

/-- `mkword(v0, .., v7)` (00_scope.md R10): the word whose lane `i` is `f i`. -/
def mkword (f : Fin 8 → Byte) : Word := f 7 ++ f 6 ++ f 5 ++ f 4 ++ f 3 ++ f 2 ++ f 1 ++ f 0

/-- `map1(f, a)` (00_scope.md R10). -/
def map1 (f : Byte → Byte) (a : Word) : Word := mkword fun i => f (lane a i)

/-- `map2(f, a, b)` (00_scope.md R10). -/
def map2 (f : Byte → Byte → Byte) (a b : Word) : Word := mkword fun i => f (lane a i) (lane b i)

/-- `F_bytesToLane` (40_codec.md R108). -/
def bytesToLane (bs : Vector Byte 8) : Word := mkword fun j => bs[j.val]

/-- `F_laneToBytes` (40_codec.md R110). -/
def laneToBytes (w : Word) : Vector Byte 8 := Vector.ofFn fun j => lane w j

end Sys2Proof.Machine
end

