-- ==== Sys2Proof/Machine/Memory.lean ====
section
/-! DEFINITION. The byte buffer `BUF` (10_state.md R37) as a list of address and byte pairs in one canonical form:
addresses strictly rising and below 263, no entry equal to what an unlisted address reads as. -/

namespace Sys2Proof.Machine

/-- The contents of `BUF`: the bytes that differ from `Config.resetByte`, by rising address. -/
abbrev Memory := List Host.Cell

/-- What address `a` reads as: its entry, else `Config.resetByte` (log 2). -/
def Memory.read (m : Memory) (a : Nat) : Byte :=
  match m with
  | [] => Config.resetByte
  | c :: rest => if c.1 = a then c.2 else Memory.read rest a

/-- `BUF[a] <- b`, keeping the canonical form: writing the unlisted value removes the entry. -/
def Memory.write (m : Memory) (a : Nat) (b : Byte) : Memory :=
  match m with
  | [] => if b = Config.resetByte then [] else [(a, b)]
  | c :: rest =>
    if a < c.1 then (if b = Config.resetByte then c :: rest else (a, b) :: c :: rest)
    else if a = c.1 then (if b = Config.resetByte then rest else (a, b) :: rest)
    else c :: Memory.write rest a b

/-- The canonical form from address `lo` on. -/
def Memory.wfFrom (lo : Nat) (m : Memory) : Bool :=
  match m with
  | [] => true
  | c :: rest =>
    decide (lo ≤ c.1) && decide (c.1 < Config.bufCap) && decide (c.2 ≠ Config.resetByte)
      && Memory.wfFrom (c.1 + 1) rest

/-- The canonical form: strictly rising addresses below `BUF_CAP`, no entry equal to the unlisted value. -/
def Memory.wf (m : Memory) : Bool := Memory.wfFrom 0 m

/-- `MemWrite(addr, n, v)` of 00_scope.md R12: the bytes of `v` in order, the first at the lowest address. -/
def Memory.writeBytes (m : Memory) (addr : Nat) (v : List Byte) : Memory :=
  match v with
  | [] => m
  | b :: rest => Memory.writeBytes (Memory.write m addr b) (addr + 1) rest

/-- `MemRead(addr, 8)` of 00_scope.md R12: the 8 bytes from `addr`, first byte first; 8 is the only length a rule
uses. -/
def Memory.readGroup (m : Memory) (addr : Nat) : Vector Byte 8 :=
  Vector.ofFn fun j => Memory.read m (addr + j.val)

/-- The bytes `BUF[addr .. addr+n-1]` as a list. -/
def Memory.readBytes (m : Memory) (addr n : Nat) : List Byte :=
  (List.range n).map fun j => Memory.read m (addr + j)

/-- The buffer that holds the given 263 bytes. -/
def Memory.ofBytes (v : Vector Byte 263) : Memory := Memory.writeBytes [] 0 v.toList

end Sys2Proof.Machine
end

