-- ==== Sys2Proof/Machine/State.lean ====
section
/-! DEFINITION. The state of one unit (10_state.md R20), the reasons a step can stop, and the state after reset
(10_state.md R41, 70_reset_and_hazards.md R210). -/

namespace Sys2Proof.Machine

/-- `STATE` (10_state.md R32). -/
inductive RunState where
  /-- Code 0: reset has happened, no run started since. -/
  | idle
  /-- Code 1: the unit executes commands. -/
  | run
  /-- Code 2: the last run ended at an `END` command. -/
  | done
  /-- Code 3: the last run ended in a fault. -/
  | fault
  deriving DecidableEq, Repr

/-- The state of one unit: the ten rows of 10_state.md R20, and the command stream of the run (R39). -/
structure State where
  /-- `x[0..31]` (R21). -/
  x : Vector Word 32
  /-- `BUF[0..262]` (R37). -/
  buf : Memory
  /-- `BLEN` (R28). -/
  blen : BitVec 9
  /-- `LCNT` (R29). -/
  lcnt : BitVec 6
  /-- `CONSUMED` (R30). -/
  consumed : BitVec 9
  /-- `STATE` (R32). -/
  state : RunState
  /-- `CAUSE` (R33). -/
  cause : Cause
  /-- `FCP` (R34). -/
  fcp : BitVec 16
  /-- `FCMD` (R35). -/
  fcmd : Cmd
  /-- `CP`, the command pointer (R31). -/
  cp : BitVec 16
  /-- `PROG`; `NCMD` is its length (R39). A parameter of the run, held here because the step fetches from it
  (DESIGN CHOICE, log 4). -/
  prog : List Cmd
  deriving DecidableEq, Repr

/-- Why a step stops without a next state. The five faults of 60_exceptions.md R186 are not among these: the unit
takes them, and their entry (R195) is a next state. -/
inductive Fault where
  /-- Raised by `step` in `IDLE`: the unit has no step of its own (10_state.md R32, U12). Safe. -/
  | idle
  /-- Raised by `step` in `DONE`: the run is over (46_system.md R177, U12). Safe. -/
  | done
  /-- Raised by `step` in `FAULT`: the unit has stopped (60_exceptions.md R195, R197, U12). Safe. -/
  | faulted
  /-- Raised by `PACK` with `BLEN > 263` and by `UNPACK` with `LCNT > 32`: the block would reach registers and
  buffer bytes that do not exist (20_memory.md R50, R51). No reachable state has such a length (U8). Safe, log 9. -/
  | blockRange
  deriving DecidableEq, Repr

/-- Why the model gives no meaning. -/
inductive Refusal where
  /-- Raised by `exec` for a command with no meaning yet; no arm raises it. Safe. -/
  | notModelled (mnemonic : String)
  /-- Raised by `hostAct` and `hostRead` for an action in a `STATE` where the host may not take it
  (70_reset_and_hazards.md R216, R217, R219, U10). Safe, log 6. -/
  | hostWrongState
  /-- Raised by `hostAct` and `hostRead` for a value, address, register or stream length outside the range R216
  gives the action (R217, U8). Safe, log 6. -/
  | hostOutOfRange
  deriving DecidableEq, Repr

/-- The state after reset with the contents `resetX` and `resetBuf` in the registers and the buffer: the two open
parameters `RESET_X` and `RESET_BUF` of 92_eei_decisions.md D28 (10_state.md R41). `PROG` is none until the host
loads one (R41, log 4). -/
def State.resetWith (resetX : Vector Word 32) (resetBuf : Memory) : State where
  x := resetX
  buf := resetBuf
  blen := 0#9
  lcnt := 0#6
  consumed := 0#9
  state := .idle
  cause := .none
  fcp := 0#16
  fcmd := 0#32
  cp := 0#16
  prog := []

/-- The state after reset, at the contents this model names: every register `Config.resetWord` (log 1), every
buffer byte `Config.resetByte` (log 2). -/
def State.reset : State := State.resetWith (Vector.replicate 32 Config.resetWord) []

end Sys2Proof.Machine
end

