-- ==== Sys2Proof/Machine/Operands.lean ====
section
/-! DEFINITION. What a command's operands name: lane registers, the byte of a register, the 8-byte group at an
address, the value of a control or status register. -/

namespace Sys2Proof.Machine

/-- `x[r]` (00_scope.md R12, 10_state.md R21). -/
def State.reg (s : State) (r : Reg) : Word := s.x[r.val]

/-- "The byte" of a register: lane 0, bits [7:0] (40_codec.md R107, 45_lookup.md R166). -/
def State.regByte (s : State) (r : Reg) : Byte := lane (s.reg r) 0

/-- `BUF[a]`. -/
def State.readByte (s : State) (a : Nat) : Byte := s.buf.read a

/-- The address of the 8-byte group that `LDL` and `STL` name: `imm8` unsigned, not scaled (30_encoding.md R78). -/
def groupAddr (imm8 : Byte) : Nat := imm8.toNat

/-- The 2-bit code of `STATE` (10_state.md R32). -/
def RunState.code : RunState → BitVec 2
  | .idle => 0#2
  | .run => 1#2
  | .done => 2#2
  | .fault => 3#2

/-- The 3-bit code of `CAUSE` (60_exceptions.md R186). -/
def causeCode : Cause → BitVec 3
  | .none => 0#3
  | .illegalOpcode => 1#3
  | .reservedField => 2#3
  | .illegalCsr => 3#3
  | .csrRange => 4#3
  | .fetchOverrun => 5#3

/-- `zext_64(csr[NAME])`: the value `RDC` reads (10_state.md R36, 46_system.md R178). -/
def State.csr (s : State) : Csr → Word
  | .blen => s.blen.setWidth 64
  | .lcnt => s.lcnt.setWidth 64
  | .consumed => s.consumed.setWidth 64
  | .state => s.state.code.setWidth 64
  | .cause => (causeCode s.cause).setWidth 64
  | .fcp => s.fcp.setWidth 64
  | .fcmd => s.fcmd.setWidth 64

end Sys2Proof.Machine
end

