-- ==== Sys2Proof/Machine/Ops.lean ====
section
/-! DEFINITION. The operations the meanings share: writing a register, storing an 8-byte group, the two block
moves of the codec, the advance of the command pointer, and taking a fault. There is no return from a fault
(60_exceptions.md R197): only reset (`State.resetWith`) leaves `FAULT`. -/

namespace Sys2Proof.Machine

/-- The outcomes of a step of this unit. -/
abbrev Result := Host.Outcome State Fault Refusal

/-- `x[r] <- v` (00_scope.md R12). -/
def State.setReg (s : State) (r : Reg) (v : Word) : State := { s with x := s.x.set r.val v }

/-- `MemWrite(addr, 8, F_laneToBytes(w))` (40_codec.md R111). -/
def State.storeGroup (s : State) (addr : Nat) (w : Word) : State :=
  { s with buf := s.buf.writeBytes addr (laneToBytes w).toList }

/-- `pc <- pc + 1` (30_encoding.md R74). -/
def State.advance (s : State) : State := { s with cp := s.cp + 1#16 }

/-- The end of every command that neither ends the run nor faults: its writes `s` are made, `CP` advances
(30_encoding.md R74). -/
def retire (s : State) : Result := .next s.advance

/-- Fault entry, `raise Fault(cause, word)` (60_exceptions.md R195): `CAUSE`, `FCP`, `FCMD`, `STATE` are written,
nothing else changes. -/
def raiseFault (cause : Cause) (word : Cmd) (s : State) : State :=
  { s with cause := cause, fcp := s.cp, fcmd := word, state := .fault }

/-- A step that takes a fault: the state after its entry (60_exceptions.md R195). -/
def trap (cause : Cause) (word : Cmd) (s : State) : Result := .next (raiseFault cause word s)

/-- `n = floor(BLEN / 8)`, the number of words `PACK` makes (40_codec.md R102). -/
def State.packCount (s : State) : Nat := s.blen.toNat / 8

/-- The loop of `PACK` (40_codec.md R102): `x[i] <- F_bytesToLane(MemRead(8*i, 8))` for `i` below `n`; the other
registers keep their values. -/
def packedRegs (s : State) (n : Nat) : Vector Word 32 :=
  Vector.ofFn fun i => if i.val < n then bytesToLane (s.buf.readGroup (8 * i.val)) else s.x[i.val]

/-- `x[0 .. n-1]` as a list of words (40_codec.md R104). -/
def firstRegs (s : State) (n : Nat) : List Word := s.x.toList.take n

end Sys2Proof.Machine
end

