-- ==== Sys2Proof/Machine/Arithmetic.lean ====
section
/-! DEFINITION. Per-lane unsigned arithmetic (42_arithmetic.md): `ADDW`, `SUBW`, `ADDS`, `SUBS`, `ABSD`, `MIN`,
`MAX`, `AVG`. Each lane is computed exactly on integers and narrowed at the end; the lane-wise definition is the
meaning (92_eei_decisions.md D22). No command writes a carry, a borrow or a saturation mark (R130 (d)). -/

namespace Sys2Proof.Machine

/-! ### One lane -/

/-- `(a + b) mod 256` (42_arithmetic.md R131). -/
def laneAddWrap (a b : Byte) : Byte := BitVec.ofNat 8 ((a.toNat + b.toNat) % 256)

/-- `(a - b) mod 256` (42_arithmetic.md R133). -/
def laneSubWrap (a b : Byte) : Byte := BitVec.ofNat 8 ((a.toNat + 256 - b.toNat) % 256)

/-- `min(a + b, 255)` (42_arithmetic.md R135). -/
def laneAddSat (a b : Byte) : Byte := BitVec.ofNat 8 (Nat.min (a.toNat + b.toNat) 255)

/-- `max(a - b, 0)` (42_arithmetic.md R137): subtraction of naturals stops at 0. -/
def laneSubSat (a b : Byte) : Byte := BitVec.ofNat 8 (a.toNat - b.toNat)

/-- `|a - b|` (42_arithmetic.md R139). -/
def laneAbsDiff (a b : Byte) : Byte := BitVec.ofNat 8 ((a.toNat : Int) - (b.toNat : Int)).natAbs

/-- `min(a, b)`, unsigned (42_arithmetic.md R141). -/
def laneMin (a b : Byte) : Byte := if a.toNat ≤ b.toNat then a else b

/-- `max(a, b)`, unsigned (42_arithmetic.md R143). -/
def laneMax (a b : Byte) : Byte := if a.toNat ≤ b.toNat then b else a

/-- `floor((a + b) / 2)`, the sum taken as an integer (42_arithmetic.md R145). -/
def laneAverage (a b : Byte) : Byte := BitVec.ofNat 8 ((a.toNat + b.toNat) / 2)

/-! ### Function layer -/

/-- `F_addWrap` (42_arithmetic.md R131). -/
def fAddWrap (a b : Word) : Word := map2 laneAddWrap a b

/-- `F_subWrap` (42_arithmetic.md R133). -/
def fSubWrap (a b : Word) : Word := map2 laneSubWrap a b

/-- `F_addSat` (42_arithmetic.md R135). -/
def fAddSat (a b : Word) : Word := map2 laneAddSat a b

/-- `F_subSat` (42_arithmetic.md R137). -/
def fSubSat (a b : Word) : Word := map2 laneSubSat a b

/-- `F_absDiff` (42_arithmetic.md R139). -/
def fAbsDiff (a b : Word) : Word := map2 laneAbsDiff a b

/-- `F_min` (42_arithmetic.md R141). -/
def fMin (a b : Word) : Word := map2 laneMin a b

/-- `F_max` (42_arithmetic.md R143). -/
def fMax (a b : Word) : Word := map2 laneMax a b

/-- `F_average` (42_arithmetic.md R145). -/
def fAverage (a b : Word) : Word := map2 laneAverage a b

/-! ### Commands -/

/-- `ADDW Ld, La, Lb` (42_arithmetic.md R132). -/
def execAddw (rd ra rb : Reg) (s : State) : Result := retire (s.setReg rd (fAddWrap (s.reg ra) (s.reg rb)))

/-- `SUBW Ld, La, Lb` (42_arithmetic.md R134): `x[ra] - x[rb]`. -/
def execSubw (rd ra rb : Reg) (s : State) : Result := retire (s.setReg rd (fSubWrap (s.reg ra) (s.reg rb)))

/-- `ADDS Ld, La, Lb` (42_arithmetic.md R136). -/
def execAdds (rd ra rb : Reg) (s : State) : Result := retire (s.setReg rd (fAddSat (s.reg ra) (s.reg rb)))

/-- `SUBS Ld, La, Lb` (42_arithmetic.md R138): `x[ra] - x[rb]`. -/
def execSubs (rd ra rb : Reg) (s : State) : Result := retire (s.setReg rd (fSubSat (s.reg ra) (s.reg rb)))

/-- `ABSD Ld, La, Lb` (42_arithmetic.md R140). -/
def execAbsd (rd ra rb : Reg) (s : State) : Result := retire (s.setReg rd (fAbsDiff (s.reg ra) (s.reg rb)))

/-- `MIN Ld, La, Lb` (42_arithmetic.md R142). -/
def execMin (rd ra rb : Reg) (s : State) : Result := retire (s.setReg rd (fMin (s.reg ra) (s.reg rb)))

/-- `MAX Ld, La, Lb` (42_arithmetic.md R144). -/
def execMax (rd ra rb : Reg) (s : State) : Result := retire (s.setReg rd (fMax (s.reg ra) (s.reg rb)))

/-- `AVG Ld, La, Lb` (42_arithmetic.md R146). -/
def execAvg (rd ra rb : Reg) (s : State) : Result := retire (s.setReg rd (fAverage (s.reg ra) (s.reg rb)))

end Sys2Proof.Machine
end

