-- ==== Sys2Proof/Machine/BitOps.lean ====
section
/-! DEFINITION. Per-lane bit operations (43_bitops.md): `SWAPN`, `REVB`, `POPC`, by their lane-wise definitions. -/

namespace Sys2Proof.Machine

/-! ### One lane -/

/-- `{v[3:0], v[7:4]}` (43_bitops.md R150). -/
def laneSwapNibbles (v : Byte) : Byte := v.extractLsb' 0 4 ++ v.extractLsb' 4 4

/-- Bit `k` of the result is bit `7 - k` of `v` (43_bitops.md R152): bit 0 of `v` first, as the top bit. -/
def laneReverseBits (v : Byte) : Byte :=
  v.extractLsb' 0 1 ++ v.extractLsb' 1 1 ++ v.extractLsb' 2 1 ++ v.extractLsb' 3 1
    ++ v.extractLsb' 4 1 ++ v.extractLsb' 5 1 ++ v.extractLsb' 6 1 ++ v.extractLsb' 7 1

/-- The number of 1 bits of a byte (43_bitops.md R154). -/
def bitCount (v : Byte) : Nat := (List.range 8).countP fun k => v.getLsbD k

/-- The number of 1 bits of `v`, as a byte 0..8 (43_bitops.md R154). -/
def lanePopcount (v : Byte) : Byte := BitVec.ofNat 8 (bitCount v)

/-! ### Function layer -/

/-- `F_swapNibbles` (43_bitops.md R150). -/
def fSwapNibbles (w : Word) : Word := map1 laneSwapNibbles w

/-- `F_reverseBitsPerByte` (43_bitops.md R152). -/
def fReverseBits (w : Word) : Word := map1 laneReverseBits w

/-- `F_popcountPerByte` (43_bitops.md R154). -/
def fPopcount (w : Word) : Word := map1 lanePopcount w

/-! ### Commands -/

/-- `SWAPN Ld, La` (43_bitops.md R151). -/
def execSwapn (rd ra : Reg) (s : State) : Result := retire (s.setReg rd (fSwapNibbles (s.reg ra)))

/-- `REVB Ld, La` (43_bitops.md R153). -/
def execRevb (rd ra : Reg) (s : State) : Result := retire (s.setReg rd (fReverseBits (s.reg ra)))

/-- `POPC Ld, La` (43_bitops.md R155). -/
def execPopc (rd ra : Reg) (s : State) : Result := retire (s.setReg rd (fPopcount (s.reg ra)))

end Sys2Proof.Machine
end

