-- ==== Sys2Proof/Machine/Codec.lean ====
section
/-! DEFINITION. Lane codec and broadcast (40_codec.md): `PACK`, `UNPACK`, `BCI`, `BCR`, `LDL`, `STL`. -/

namespace Sys2Proof.Machine

/-! ### Function layer -/

/-- `F_pack(S)` (40_codec.md R101): `floor(len/8)` words and the count of bytes they cover. The default of `getD`
is never taken: `8i + j` is below `8 * floor(len/8)`. -/
def fPack (bs : List Byte) : List Word × Nat :=
  let n := bs.length / 8
  ((List.range n).map fun i => bytesToLane (Vector.ofFn fun j : Fin 8 => bs.getD (8 * i + j.val) 0#8), 8 * n)

/-- `F_unpack(lanes)` (40_codec.md R103): the bytes of each word in order. -/
def fUnpack (lanes : List Word) : List Byte := lanes.flatMap fun w => (laneToBytes w).toList

/-- `F_broadcast(b)` (40_codec.md R105): every lane is `b`. -/
def fBroadcast (b : Byte) : Word := mkword fun _ => b

/-! ### Commands -/

/-- `PACK` (40_codec.md R102). The guard holds exactly when `BLEN <= 263` (U8, log 9). -/
def execPack (s : State) : Result :=
  let n := s.packCount
  if n ≤ Config.nReg then
    retire { s with x := packedRegs s n, lcnt := BitVec.ofNat 6 n, consumed := BitVec.ofNat 9 (8 * n) }
  else .fault .blockRange

/-- `UNPACK` (40_codec.md R104): `F_unpack(x[0..n-1])` to `BUF[0 .. 8n-1]`, `n = LCNT`. The guard is
`LCNT <= 32` (U8, log 9). -/
def execUnpack (s : State) : Result :=
  let n := s.lcnt.toNat
  if n ≤ Config.nReg then retire { s with buf := s.buf.writeBytes 0 (fUnpack (firstRegs s n)) }
  else .fault .blockRange

/-- `BCI Ld, imm8` (40_codec.md R106). -/
def execBci (rd : Reg) (imm8 : Byte) (s : State) : Result := retire (s.setReg rd (fBroadcast imm8))

/-- `BCR Ld, La` (40_codec.md R107): lane 0 of `x[ra]` to every lane. -/
def execBcr (rd ra : Reg) (s : State) : Result := retire (s.setReg rd (fBroadcast (s.regByte ra)))

/-- `LDL Ld, imm8` (40_codec.md R109). The group ends at `imm8 + 7 <= 262` (20_memory.md R56). -/
def execLdl (rd : Reg) (imm8 : Byte) (s : State) : Result :=
  retire (s.setReg rd (bytesToLane (s.buf.readGroup (groupAddr imm8))))

/-- `STL Ls, imm8` (40_codec.md R111). The group ends at `imm8 + 7 <= 262` (20_memory.md R56). -/
def execStl (rs : Reg) (imm8 : Byte) (s : State) : Result :=
  retire (s.storeGroup (groupAddr imm8) (s.reg rs))

end Sys2Proof.Machine
end

