-- ==== Sys2Proof/Machine/Flags.lean ====
section
/-! DEFINITION. Flag words (10_state.md R24). The unit has no flag register and no command writes a flag (R25): a
flag word is an ordinary lane word. -/

namespace Sys2Proof.Machine

/-- One lane of a comparator's result: 0x80 where the predicate holds, 0x00 where it does not (41_comparator.md
R120). -/
def flagByte (holds : Bool) : Byte := if holds then 0x80#8 else 0x00#8

/-- A high-bit flag word: every lane 0x00 or 0x80 (10_state.md R24 (a)). -/
def highBitFlag (w : Word) : Bool :=
  (List.finRange 8).all fun i => lane w i == 0x00#8 || lane w i == 0x80#8

/-- The meaning of a flag lane for selection and gather: bit 0, the other bits ignored (10_state.md R24 (b)). -/
def lowFlag (flags : Word) (i : Fin 8) : Bool := (lane flags i).getLsbD 0

/-- `F_mask(f) = (f >> 7) * 0xFF` (42_arithmetic.md R130 (f)): on a high-bit flag word, 0xFF in every flagged
lane. -/
def flagMask (f : Word) : Word := (f >>> 7) * 0xFF#64

end Sys2Proof.Machine
end

