-- ==== Sys2Proof/Machine/Comparator.lean ====
section
/-! DEFINITION. Per-lane unsigned comparators (41_comparator.md): `EQ`, `LT`, `GT`. The lane-wise definition is the
meaning (92_eei_decisions.md D22); the word formulas stand in Machine/Formulas.lean. -/

namespace Sys2Proof.Machine

/-- `F_equal(v, c)` (41_comparator.md R121). -/
def fEqual (v c : Word) : Word := map2 (fun a b => flagByte (a == b)) v c

/-- `F_less(v, c)` (41_comparator.md R123), unsigned. -/
def fLess (v c : Word) : Word := map2 (fun a b => flagByte (decide (a.toNat < b.toNat))) v c

/-- `F_greater(v, c)` (41_comparator.md R125), unsigned. -/
def fGreater (v c : Word) : Word := map2 (fun a b => flagByte (decide (b.toNat < a.toNat))) v c

/-- `EQ Ld, La, Lb` (41_comparator.md R122). -/
def execEq (rd ra rb : Reg) (s : State) : Result := retire (s.setReg rd (fEqual (s.reg ra) (s.reg rb)))

/-- `LT Ld, La, Lb` (41_comparator.md R124). -/
def execLt (rd ra rb : Reg) (s : State) : Result := retire (s.setReg rd (fLess (s.reg ra) (s.reg rb)))

/-- `GT Ld, La, Lb` (41_comparator.md R126). -/
def execGt (rd ra rb : Reg) (s : State) : Result := retire (s.setReg rd (fGreater (s.reg ra) (s.reg rb)))

end Sys2Proof.Machine
end

