-- ==== Sys2Proof/Machine/Lookup.lean ====
section
/-! DEFINITION. Gather and set-bit lookup (45_lookup.md): `GATH`, `POSB`. -/

namespace Sys2Proof.Machine

/-- `F_positionsOfSetBits(v)` (45_lookup.md R165): the indices of the 1 bits, ascending. -/
def positionsOfSetBits (v : Byte) : List Nat := (List.range 8).filter fun k => v.getLsbD k

/-- `SBT[v]` (45_lookup.md R165): lane `k` is the `k`-th position, the filler past the last one. -/
def sbt (v : Byte) : Word :=
  mkword fun k =>
    match (positionsOfSetBits v)[k.val]? with
    | some p => BitVec.ofNat 8 p
    | none => Config.sbtFill

/-- `F_gatherLowBits(w)` (45_lookup.md R167): bit 0 of lane `i` is bit `7 - i` of the result, so lane 0 comes
first, as the top bit. -/
def fGather (w : Word) : Byte :=
  (lane w 0).extractLsb' 0 1 ++ (lane w 1).extractLsb' 0 1 ++ (lane w 2).extractLsb' 0 1
    ++ (lane w 3).extractLsb' 0 1 ++ (lane w 4).extractLsb' 0 1 ++ (lane w 5).extractLsb' 0 1
    ++ (lane w 6).extractLsb' 0 1 ++ (lane w 7).extractLsb' 0 1

/-- `GATH Ld, La` (45_lookup.md R169): the byte zero-extended. -/
def execGath (rd ra : Reg) (s : State) : Result :=
  retire (s.setReg rd ((fGather (s.reg ra)).setWidth 64))

/-- `POSB Ld, La` (45_lookup.md R166): the table entry of lane 0 of `x[ra]`. -/
def execPosb (rd ra : Reg) (s : State) : Result := retire (s.setReg rd (sbt (s.regByte ra)))

end Sys2Proof.Machine
end

