-- ==== Sys2Proof/Machine/Select.lean ====
section
/-! DEFINITION. Branchless selection (44_select.md): `SEL`. -/

namespace Sys2Proof.Machine

/-- `F_selectByFlag(a, b, flags)` (44_select.md R160): lane of `a` where bit 0 of the flag lane is 1, else of
`b`. -/
def fSelect (a b flags : Word) : Word :=
  mkword fun i => if lowFlag flags i then lane a i else lane b i

/-- `SEL Ld, La, Lb, Lc` (44_select.md R161). -/
def execSel (rd ra rb rc : Reg) (s : State) : Result :=
  retire (s.setReg rd (fSelect (s.reg ra) (s.reg rb) (s.reg rc)))

end Sys2Proof.Machine
end

