-- ==== Sys2Proof/Machine/System.lean ====
section
/-! DEFINITION. System commands (46_system.md): `NOP`, `END`, `RDC`, `WRC`. -/

namespace Sys2Proof.Machine

/-- `NOP` (46_system.md R176): nothing but the advance of `CP`. -/
def execNop (s : State) : Result := retire s

/-- `END` (46_system.md R177): `STATE <- DONE`; `CP` stays at the `END`. -/
def execEnd (s : State) : Result := .next { s with state := .done }

/-- `RDC Ld, NAME` (46_system.md R178): the register zero-extended. -/
def execRdc (rd : Reg) (csr : Csr) (s : State) : Result := retire (s.setReg rd (s.csr csr))

/-- `WRC NAME, imm9` (46_system.md R179): `BLEN` and `LCNT` are written within their ranges; a value out of range
takes `CSR_RANGE` and a read-only register `ILLEGAL_CSR`, with the command's own word. The decoder has turned both
away before (30_encoding.md R73), so a run meets the two faults there; here they complete the meaning on terms no
word decodes to (log 12). -/
def execWrc (csr : Csr) (imm9 : BitVec 9) (s : State) : Result :=
  match csr with
  | .blen =>
    if imm9.toNat ≤ Config.bufCap then retire { s with blen := imm9 }
    else trap .csrRange (encode (.wrc .blen imm9)) s
  | .lcnt =>
    if imm9.toNat ≤ Config.nReg then retire { s with lcnt := imm9.setWidth 6 }
    else trap .csrRange (encode (.wrc .lcnt imm9)) s
  | .consumed => trap .illegalCsr (encode (.wrc .consumed imm9)) s
  | .state => trap .illegalCsr (encode (.wrc .state imm9)) s
  | .cause => trap .illegalCsr (encode (.wrc .cause imm9)) s
  | .fcp => trap .illegalCsr (encode (.wrc .fcp imm9)) s
  | .fcmd => trap .illegalCsr (encode (.wrc .fcmd imm9)) s

end Sys2Proof.Machine
end

