-- ==== Sys2Proof/Machine/Dispatch.lean ====
section
/-! DEFINITION. The meaning of every command: one arm per constructor of `Instr`. -/

namespace Sys2Proof.Machine

/-- The effect of a decoded command on the state (30_encoding.md R73 step 5, R74). -/
def exec (i : Instr) (s : State) : Host.Outcome State Fault Refusal :=
  match i with
  | .nop => Sys2Proof.Machine.execNop s
  | .endRun => Sys2Proof.Machine.execEnd s
  | .rdc rd csr => Sys2Proof.Machine.execRdc rd csr s
  | .wrc csr imm9 => Sys2Proof.Machine.execWrc csr imm9 s
  | .pack => Sys2Proof.Machine.execPack s
  | .unpack => Sys2Proof.Machine.execUnpack s
  | .bci rd imm8 => Sys2Proof.Machine.execBci rd imm8 s
  | .bcr rd ra => Sys2Proof.Machine.execBcr rd ra s
  | .ldl rd imm8 => Sys2Proof.Machine.execLdl rd imm8 s
  | .stl rs imm8 => Sys2Proof.Machine.execStl rs imm8 s
  | .eq rd ra rb => Sys2Proof.Machine.execEq rd ra rb s
  | .lt rd ra rb => Sys2Proof.Machine.execLt rd ra rb s
  | .gt rd ra rb => Sys2Proof.Machine.execGt rd ra rb s
  | .addw rd ra rb => Sys2Proof.Machine.execAddw rd ra rb s
  | .subw rd ra rb => Sys2Proof.Machine.execSubw rd ra rb s
  | .adds rd ra rb => Sys2Proof.Machine.execAdds rd ra rb s
  | .subs rd ra rb => Sys2Proof.Machine.execSubs rd ra rb s
  | .absd rd ra rb => Sys2Proof.Machine.execAbsd rd ra rb s
  | .min rd ra rb => Sys2Proof.Machine.execMin rd ra rb s
  | .max rd ra rb => Sys2Proof.Machine.execMax rd ra rb s
  | .avg rd ra rb => Sys2Proof.Machine.execAvg rd ra rb s
  | .swapn rd ra => Sys2Proof.Machine.execSwapn rd ra s
  | .revb rd ra => Sys2Proof.Machine.execRevb rd ra s
  | .popc rd ra => Sys2Proof.Machine.execPopc rd ra s
  | .sel rd ra rb rc => Sys2Proof.Machine.execSel rd ra rb rc s
  | .gath rd ra => Sys2Proof.Machine.execGath rd ra s
  | .posb rd ra => Sys2Proof.Machine.execPosb rd ra s

end Sys2Proof.Machine
end

