-- ==== Sys2Proof/Machine/Fetch.lean ====
section
/-! DEFINITION. Command fetch (20_memory.md R64, 60_exceptions.md R191) and the placing of a word where the next
step fetches. -/

namespace Sys2Proof.Machine

/-- The word at index `CP` of `PROG`; none when the stream has run out (60_exceptions.md R191; a `CP` above `NCMD`,
which no run reaches, counts as run out too, log 11). -/
def fetch (s : State) : Option Cmd := s.prog[s.cp.toNat]?

/-- The stream with word `w` at index `k`; a shorter stream is filled up with the word 0 before it. -/
def placeWord (prog : List Cmd) (k : Nat) (w : Cmd) : List Cmd :=
  if k < prog.length then prog.set k w
  else prog ++ List.replicate (k - prog.length) 0#32 ++ [w]

/-- The low `nbits` bits of `w` as one command word; every bit above them is 0 (log 17). -/
def tableWord (nbits w : Nat) : Cmd := BitVec.ofNat 32 (w % 2 ^ nbits)

end Sys2Proof.Machine
end

