-- ==== Sys2Proof/Machine/Step.lean ====
section
/-! DEFINITION. One step of the unit (70_reset_and_hazards.md R218): fetch `PROG[CP]` or take `FETCH_OVERRUN`;
decode or take the fault of the first check that fails; execute. -/

namespace Sys2Proof.Machine

/-- One step (20_memory.md R60). Outside `RUN` the unit has no step (10_state.md R32). -/
def step (s : State) : Host.Outcome State Fault Refusal :=
  match s.state with
  | .idle => .fault .idle
  | .done => .fault .done
  | .fault => .fault .faulted
  | .run =>
    match fetch s with
    | none => trap .fetchOverrun 0#32 s
    | some w =>
      match decode w with
      | .error cause => trap cause w s
      | .ok i => exec i s

/-- `s` with the word of the low `nbits` bits of `w` at `PROG[CP]` and `STATE = RUN`: what the host's loading and
starting do for the next fetch (log 10). -/
def State.withFetchWord (s : State) (nbits w : Nat) : State :=
  { s with prog := placeWord s.prog s.cp.toNat (tableWord nbits w), state := .run }

end Sys2Proof.Machine
end

