-- ==== Sys2Proof/Machine/Assembler.lean ====
section
/-! DEFINITION. Assembler lines (30_encoding.md R84, R85): a mnemonic and its operands in the order of R84. The
characters of a line (commas, comments, the spelling of a number) are not modelled (log 18). -/

namespace Sys2Proof

/-- The mnemonics a line may begin with: the 27 commands and the three pseudo-instructions of R85. -/
inductive Mnemonic where
  | op (o : Op)
  | mov | zero | ones
  deriving DecidableEq, Repr

/-- One operand of a line (R84). -/
inductive AsmOperand where
  /-- `L0`..`L31`. -/
  | reg (r : Reg)
  /-- An immediate. -/
  | num (n : Nat)
  /-- A control register by name. -/
  | name (c : Csr)
  deriving DecidableEq, Repr

/-- One command of assembler text (R84). -/
structure AsmLine where
  mnemonic : Mnemonic
  operands : List AsmOperand
  deriving DecidableEq, Repr

/-- The spelling of a command's mnemonic (30_encoding.md R80). -/
def Op.spelling : Op → String
  | .nop => "NOP"
  | .endRun => "END"
  | .rdc => "RDC"
  | .wrc => "WRC"
  | .pack => "PACK"
  | .unpack => "UNPACK"
  | .bci => "BCI"
  | .bcr => "BCR"
  | .ldl => "LDL"
  | .stl => "STL"
  | .eq => "EQ"
  | .lt => "LT"
  | .gt => "GT"
  | .addw => "ADDW"
  | .subw => "SUBW"
  | .adds => "ADDS"
  | .subs => "SUBS"
  | .absd => "ABSD"
  | .min => "MIN"
  | .max => "MAX"
  | .avg => "AVG"
  | .swapn => "SWAPN"
  | .revb => "REVB"
  | .popc => "POPC"
  | .sel => "SEL"
  | .gath => "GATH"
  | .posb => "POSB"

/-- The operands of a command in assembler order (R84). -/
def Instr.asmOperands : Instr → List AsmOperand
  | .nop => []
  | .endRun => []
  | .rdc rd csr => [.reg rd, .name csr]
  | .wrc csr imm9 => [.name csr, .num imm9.toNat]
  | .pack => []
  | .unpack => []
  | .bci rd imm8 => [.reg rd, .num imm8.toNat]
  | .bcr rd ra => [.reg rd, .reg ra]
  | .ldl rd imm8 => [.reg rd, .num imm8.toNat]
  | .stl rs imm8 => [.reg rs, .num imm8.toNat]
  | .eq rd ra rb => [.reg rd, .reg ra, .reg rb]
  | .lt rd ra rb => [.reg rd, .reg ra, .reg rb]
  | .gt rd ra rb => [.reg rd, .reg ra, .reg rb]
  | .addw rd ra rb => [.reg rd, .reg ra, .reg rb]
  | .subw rd ra rb => [.reg rd, .reg ra, .reg rb]
  | .adds rd ra rb => [.reg rd, .reg ra, .reg rb]
  | .subs rd ra rb => [.reg rd, .reg ra, .reg rb]
  | .absd rd ra rb => [.reg rd, .reg ra, .reg rb]
  | .min rd ra rb => [.reg rd, .reg ra, .reg rb]
  | .max rd ra rb => [.reg rd, .reg ra, .reg rb]
  | .avg rd ra rb => [.reg rd, .reg ra, .reg rb]
  | .swapn rd ra => [.reg rd, .reg ra]
  | .revb rd ra => [.reg rd, .reg ra]
  | .popc rd ra => [.reg rd, .reg ra]
  | .sel rd ra rb rc => [.reg rd, .reg ra, .reg rb, .reg rc]
  | .gath rd ra => [.reg rd, .reg ra]
  | .posb rd ra => [.reg rd, .reg ra]

/-- The line of a command (R84). -/
def Instr.asm (i : Instr) : AsmLine := { mnemonic := .op i.op, operands := i.asmOperands }

/-- An `imm8` operand: a number 0..255 (30_encoding.md R78). -/
def asImm8 (n : Nat) : Option Byte := if n < 256 then some (BitVec.ofNat 8 n) else none

/-- An `imm9` operand: a number 0..511 (30_encoding.md R79). -/
def asImm9 (n : Nat) : Option (BitVec 9) := if n < 512 then some (BitVec.ofNat 9 n) else none

/-- The command a line stands for; none where the operands are not those of the mnemonic (R84, R85). -/
def assemble (l : AsmLine) : Option Instr :=
  match l.mnemonic, l.operands with
  | .op .nop, [] => some .nop
  | .op .endRun, [] => some .endRun
  | .op .rdc, [.reg d, .name c] => some (.rdc d c)
  | .op .wrc, [.name c, .num n] => (asImm9 n).map (.wrc c)
  | .op .pack, [] => some .pack
  | .op .unpack, [] => some .unpack
  | .op .bci, [.reg d, .num n] => (asImm8 n).map (.bci d)
  | .op .bcr, [.reg d, .reg a] => some (.bcr d a)
  | .op .ldl, [.reg d, .num n] => (asImm8 n).map (.ldl d)
  | .op .stl, [.reg d, .num n] => (asImm8 n).map (.stl d)
  | .op .eq, [.reg d, .reg a, .reg b] => some (.eq d a b)
  | .op .lt, [.reg d, .reg a, .reg b] => some (.lt d a b)
  | .op .gt, [.reg d, .reg a, .reg b] => some (.gt d a b)
  | .op .addw, [.reg d, .reg a, .reg b] => some (.addw d a b)
  | .op .subw, [.reg d, .reg a, .reg b] => some (.subw d a b)
  | .op .adds, [.reg d, .reg a, .reg b] => some (.adds d a b)
  | .op .subs, [.reg d, .reg a, .reg b] => some (.subs d a b)
  | .op .absd, [.reg d, .reg a, .reg b] => some (.absd d a b)
  | .op .min, [.reg d, .reg a, .reg b] => some (.min d a b)
  | .op .max, [.reg d, .reg a, .reg b] => some (.max d a b)
  | .op .avg, [.reg d, .reg a, .reg b] => some (.avg d a b)
  | .op .swapn, [.reg d, .reg a] => some (.swapn d a)
  | .op .revb, [.reg d, .reg a] => some (.revb d a)
  | .op .popc, [.reg d, .reg a] => some (.popc d a)
  | .op .sel, [.reg d, .reg a, .reg b, .reg c] => some (.sel d a b c)
  | .op .gath, [.reg d, .reg a] => some (.gath d a)
  | .op .posb, [.reg d, .reg a] => some (.posb d a)
  | .mov, [.reg d, .reg a] => some (.mov d a)
  | .zero, [.reg d] => some (.zero d)
  | .ones, [.reg d] => some (.ones d)
  | _, _ => none

end Sys2Proof
end

