-- ==== Sys2Proof/Machine/Formulas.lean ====
section
/-! DEFINITION. The word-level formulas the spec derives for the functions of files 40 to 45: 64-bit arithmetic
modulo 2^64 (00_scope.md R11), constants of 10_state.md R26 and R27. Not the meaning of any command: each is one
realisation of a lane-wise definition (92_eei_decisions.md D22, log 13), stated equal to it. -/

namespace Sys2Proof.Machine

open Sys2Proof.Config

/-- 40_codec.md R105. -/
def broadcastFormula (b : Byte) : Word := b.setWidth 64 * lowBits

/-- 41_comparator.md R121, with the `| x` that 90_conflicts.md C2 restores. -/
def equalFormula (v c : Word) : Word :=
  let x := v ^^^ c
  let t := (x &&& low7) + low7
  ~~~(t ||| x) &&& highBits

/-- 41_comparator.md R123. -/
def lessFormula (v c : Word) : Word :=
  let d := (v ||| highBits) - (c &&& low7)
  ((~~~v &&& c) ||| (~~~(v ^^^ c) &&& ~~~d)) &&& highBits

/-- 41_comparator.md R125. -/
def greaterFormula (v c : Word) : Word :=
  let d := (c ||| highBits) - (v &&& low7)
  ((~~~c &&& v) ||| (~~~(c ^^^ v) &&& ~~~d)) &&& highBits

/-- 42_arithmetic.md R131. -/
def addWrapFormula (a b : Word) : Word := ((a &&& low7) + (b &&& low7)) ^^^ ((a ^^^ b) &&& highBits)

/-- 42_arithmetic.md R133. -/
def subWrapFormula (a b : Word) : Word := ((a ||| highBits) - (b &&& low7)) ^^^ ((a ^^^ ~~~b) &&& highBits)

/-- 42_arithmetic.md R135. -/
def addSatFormula (a b : Word) : Word :=
  let s := addWrapFormula a b
  let c := ((a &&& b) ||| ((a ||| b) &&& ~~~s)) &&& highBits
  s ||| flagMask c

/-- 42_arithmetic.md R137. -/
def subSatFormula (a b : Word) : Word :=
  let d := subWrapFormula a b
  let br := ((~~~a &&& b) ||| (~~~(a ^^^ b) &&& d)) &&& highBits
  d &&& ~~~flagMask br

/-- 42_arithmetic.md R141. -/
def minFormula (a b : Word) : Word :=
  let m := flagMask (lessFormula a b)
  (a &&& m) ||| (b &&& ~~~m)

/-- 42_arithmetic.md R143. -/
def maxFormula (a b : Word) : Word :=
  let m := flagMask (lessFormula a b)
  (b &&& m) ||| (a &&& ~~~m)

/-- 42_arithmetic.md R139. -/
def absDiffFormula (a b : Word) : Word :=
  let m := flagMask (lessFormula a b)
  let hi := (b &&& m) ||| (a &&& ~~~m)
  let lo := (a &&& m) ||| (b &&& ~~~m)
  subWrapFormula hi lo

/-- 42_arithmetic.md R145. -/
def averageFormula (a b : Word) : Word := (a &&& b) + (((a ^^^ b) >>> 1) &&& low7)

/-- 43_bitops.md R150. -/
def swapNibblesFormula (w : Word) : Word := ((w &&& m0F) <<< 4) ||| ((w >>> 4) &&& m0F)

/-- 43_bitops.md R152. -/
def reverseBitsFormula (w : Word) : Word :=
  let t := ((w >>> 1) &&& m55) ||| ((w &&& m55) <<< 1)
  let u := ((t >>> 2) &&& m33) ||| ((t &&& m33) <<< 2)
  ((u >>> 4) &&& m0F) ||| ((u &&& m0F) <<< 4)

/-- 43_bitops.md R154. -/
def popcountFormula (w : Word) : Word :=
  let t := w - ((w >>> 1) &&& m55)
  let u := (t &&& m33) + ((t >>> 2) &&& m33)
  (u + (u >>> 4)) &&& m0F

/-- 44_select.md R160. -/
def selectFormula (a b flags : Word) : Word :=
  let m := (flags &&& lowBits) * 0xFF#64
  (a &&& m) ||| (b &&& ~~~m)

/-- 45_lookup.md R168. -/
def gatherFormula (w : Word) : Byte := (((w &&& lowBits) * gatherMul) >>> 56).setWidth 8

end Sys2Proof.Machine
end

