-- ==== Sys2Proof/Machine/HostPort.lean ====
section
/-! DEFINITION. The host's side of the unit (70_reset_and_hazards.md R216 to R219): every action of R216, its
effect, and the refusal of an action the spec gives no meaning. None of this is part of `step`: the host takes no
part in a run (R219, log 6). -/

namespace Sys2Proof.Machine

/-- The host's actions that change state (70_reset_and_hazards.md R216). -/
inductive HostAction where
  /-- `reset`, with the contents it happens to leave in `x` and `BUF` (R210, U1, D28, log 3). -/
  | reset (resetX : Vector Word 32) (resetBuf : Vector Byte 263)
  /-- `load_prog(words)`. -/
  | loadProg (words : List Cmd)
  /-- `write_reg(i, v)`. -/
  | writeReg (i : Reg) (v : Word)
  /-- `write_buf(addr, byte)`. -/
  | writeBuf (addr : Nat) (b : Byte)
  /-- `write_csr(NAME, v)`; the host writes `BLEN` and `LCNT` only. -/
  | writeCsr (csr : Csr) (v : Nat)
  /-- `start`. -/
  | start
  deriving DecidableEq, Repr

/-- The host's reads (70_reset_and_hazards.md R216). -/
inductive HostRead where
  /-- `read_reg(i)`. -/
  | reg (i : Reg)
  /-- `read_buf(addr)`. -/
  | buf (addr : Nat)
  /-- `read_csr(name)`. -/
  | csr (csr : Csr)
  /-- `read_cp`. -/
  | cp
  deriving DecidableEq, Repr

/-- The values of `STATE` in which the host may load and write (70_reset_and_hazards.md R216, R217). -/
def RunState.hostMayWrite : RunState → Bool
  | .idle => true
  | .run => false
  | .done => true
  | .fault => false

/-- The values of `STATE` in which the host may read (70_reset_and_hazards.md R216, R217). -/
def RunState.hostMayRead : RunState → Bool
  | .idle => true
  | .run => false
  | .done => true
  | .fault => true

/-- `start` (70_reset_and_hazards.md R218): `CP <- 0`, `STATE <- RUN` from `IDLE` and `DONE`; no effect in `RUN`
and `FAULT` (DEDUCED, log 8). -/
def startRun (s : State) : State :=
  match s.state with
  | .idle => { s with cp := 0#16, state := .run }
  | .done => { s with cp := 0#16, state := .run }
  | .run => s
  | .fault => s

/-- `write_csr(NAME, v)` in a state that allows it: within the ranges of R216, and of no other register. -/
def hostWriteCsr (csr : Csr) (v : Nat) (s : State) : Result :=
  match csr with
  | .blen => if v ≤ Config.bufCap then .next { s with blen := BitVec.ofNat 9 v } else .refused .hostOutOfRange
  | .lcnt => if v ≤ Config.nReg then .next { s with lcnt := BitVec.ofNat 6 v } else .refused .hostOutOfRange
  | .consumed => .refused .hostOutOfRange
  | .state => .refused .hostOutOfRange
  | .cause => .refused .hostOutOfRange
  | .fcp => .refused .hostOutOfRange
  | .fcmd => .refused .hostOutOfRange

/-- A host write, taken only in `IDLE` and `DONE` (70_reset_and_hazards.md R216, R217, R219). -/
def hostWrite (s : State) (effect : Result) : Result :=
  if s.state.hostMayWrite then effect else .refused .hostWrongState

/-- The effect of a host action (70_reset_and_hazards.md R210, R216 to R219). -/
def hostAct (a : HostAction) (s : State) : Result :=
  match a with
  | .reset resetX resetBuf => .next (State.resetWith resetX (Memory.ofBytes resetBuf))
  | .loadProg words =>
    hostWrite s (if progWellFormed words then .next { s with prog := words } else .refused .hostOutOfRange)
  | .writeReg i v => hostWrite s (.next (s.setReg i v))
  | .writeBuf addr b =>
    hostWrite s (if addr < Config.bufCap then .next { s with buf := s.buf.write addr b }
      else .refused .hostOutOfRange)
  | .writeCsr csr v => hostWrite s (hostWriteCsr csr v s)
  | .start => .next (startRun s)

/-- What a host read returns, zero-extended to 64 bits; a read changes nothing (70_reset_and_hazards.md R216). -/
def hostRead (r : HostRead) (s : State) : Except Refusal Word :=
  if s.state.hostMayRead then
    match r with
    | .reg i => .ok (s.reg i)
    | .buf addr => if addr < Config.bufCap then .ok ((s.readByte addr).setWidth 64) else .error .hostOutOfRange
    | .csr c => .ok (s.csr c)
    | .cp => .ok (s.cp.setWidth 64)
  else .error .hostWrongState

/-- What can happen next to a unit and its host (00_scope.md R7): a step of the unit or an action of the host. -/
inductive Event where
  | unit
  | host (a : HostAction)
  deriving DecidableEq, Repr

/-- One event of the two agents. -/
def sysStep (e : Event) (s : State) : Result :=
  match e with
  | .unit => step s
  | .host a => hostAct a s

/-- A sequence of events, stopping at the first that has no next state. -/
def sysRun (es : List Event) (s : State) : Result :=
  match es with
  | [] => .next s
  | e :: rest =>
    match sysStep e s with
    | .next t => sysRun rest t
    | .fault r => .fault r
    | .refused r => .refused r

end Sys2Proof.Machine
end

