-- ==== Sys2Proof/Safety.lean ====
section
/-! DEFINITION. The terms the statements use: what a command leaves unchanged, the control part of a state, the
invariant of every reachable state, and a run. -/

namespace Sys2Proof.Machine

/-! ### Frames -/

/-- Every lane register is unchanged. -/
def SameRegs (s t : State) : Prop := ∀ r : Reg, t.reg r = s.reg r

/-- Every byte of `BUF` is unchanged. -/
def SameBuf (s t : State) : Prop := ∀ a : Nat, t.readByte a = s.readByte a

/-- `BLEN`, `LCNT` and `CONSUMED` are unchanged. -/
def SameLengths (s t : State) : Prop := t.blen = s.blen ∧ t.lcnt = s.lcnt ∧ t.consumed = s.consumed

/-- The registers a fault saves into, `CAUSE`, `FCP` and `FCMD`, are unchanged. -/
def SameFaultRegs (s t : State) : Prop := t.cause = s.cause ∧ t.fcp = s.fcp ∧ t.fcmd = s.fcmd

/-- `STATE`, the fault registers and the command stream are unchanged and `CP` has advanced by one
(30_encoding.md R74): what every command but `END` does besides its own writes. -/
def Advances (s t : State) : Prop :=
  t.state = s.state ∧ SameFaultRegs s t ∧ t.prog = s.prog ∧ t.cp = s.cp + 1#16

/-- From `s` to `t` exactly one lane register changes, to `v`; no byte of `BUF` and no control register changes
(10_state.md R25: no command writes anything except the writes its rule lists). -/
def WritesOnlyReg (rd : Reg) (v : Word) (s t : State) : Prop :=
  t.reg rd = v ∧ (∀ r : Reg, r ≠ rd → t.reg r = s.reg r) ∧ SameBuf s t ∧ SameLengths s t ∧ Advances s t

/-- The command completes with the one register write `x[rd] <- v`. -/
def CompletesWith (i : Instr) (rd : Reg) (v : Word) (s : State) : Prop :=
  ∃ t, exec i s = .next t ∧ WritesOnlyReg rd v s t

/-- Fault entry as 60_exceptions.md R195 lists it: the four registers it writes, and everything it leaves. -/
def FaultsWith (c : Cause) (w : Cmd) (s t : State) : Prop :=
  t.cause = c ∧ t.fcp = s.cp ∧ t.fcmd = w ∧ t.state = .fault ∧ t.cp = s.cp ∧ SameRegs s t ∧ SameBuf s t
    ∧ SameLengths s t ∧ t.prog = s.prog

/-! ### Command words -/

/-- Every word with opcode `code` and a bit of `reserved` set decodes to `RESERVED_FIELD` (30_encoding.md R73
step 2). -/
def RejectsReserved (code : BitVec 6) (reserved : Cmd) : Prop :=
  ∀ w : Cmd, opField w = code → w &&& reserved ≠ 0#32 → decode w = .error .reservedField

/-- A command of format R3 with opcode `code` (30_encoding.md R72): its words, its reserved bits [10:0]. -/
def HasFormatR3 (code : BitVec 6) (mk : Reg → Reg → Reg → Instr) : Prop :=
  (∀ rd ra rb : Reg,
    decode (code ++ BitVec.ofNat 5 rd.val ++ BitVec.ofNat 5 ra.val ++ BitVec.ofNat 5 rb.val ++ 0#11)
      = .ok (mk rd ra rb)) ∧ RejectsReserved code 0x000007FF#32

/-- A command of format R2 with opcode `code` (30_encoding.md R72): its words, its reserved bits [15:0]. -/
def HasFormatR2 (code : BitVec 6) (mk : Reg → Reg → Instr) : Prop :=
  (∀ rd ra : Reg,
    decode (code ++ BitVec.ofNat 5 rd.val ++ BitVec.ofNat 5 ra.val ++ 0#16) = .ok (mk rd ra))
      ∧ RejectsReserved code 0x0000FFFF#32

/-- A command of format I8 with opcode `code` (30_encoding.md R72): its words, its reserved bits [20:8]. -/
def HasFormatI8 (code : BitVec 6) (mk : Reg → Byte → Instr) : Prop :=
  (∀ (rd : Reg) (imm8 : Byte),
    decode (code ++ BitVec.ofNat 5 rd.val ++ 0#13 ++ imm8) = .ok (mk rd imm8))
      ∧ RejectsReserved code 0x001FFF00#32

/-- A command of format Z with opcode `code` (30_encoding.md R72): its word, its reserved bits [25:0]. -/
def HasFormatZ (code : BitVec 6) (i : Instr) : Prop :=
  decode (code ++ 0#26) = .ok i ∧ RejectsReserved code 0x03FFFFFF#32

/-- A two-operand command: `x[rd] <- f(x[ra], x[rb])` from every state, whatever registers coincide. -/
def Computes2 (mk : Reg → Reg → Reg → Instr) (f : Word → Word → Word) : Prop :=
  ∀ (rd ra rb : Reg) (s : State), CompletesWith (mk rd ra rb) rd (f (s.reg ra) (s.reg rb)) s

/-- A one-operand command: `x[rd] <- f(x[ra])` from every state, whatever registers coincide. -/
def Computes1 (mk : Reg → Reg → Instr) (f : Word → Word) : Prop :=
  ∀ (rd ra : Reg) (s : State), CompletesWith (mk rd ra) rd (f (s.reg ra)) s

/-! ### Control part -/

/-- Two states agree on everything but the data: registers and buffer may differ. -/
def SameControl (s t : State) : Prop :=
  t.blen = s.blen ∧ t.lcnt = s.lcnt ∧ t.consumed = s.consumed ∧ t.state = s.state ∧ t.cause = s.cause
    ∧ t.fcp = s.fcp ∧ t.fcmd = s.fcmd ∧ t.cp = s.cp ∧ t.prog = s.prog

/-! ### The invariant of every reachable state -/

/-- What holds of every reachable state: the bounds of U8, the canonical buffer, a stream of legal length, `CP`
within the stream, and fault registers that tell of the one fault since reset (10_state.md R32 to R35,
60_exceptions.md R191, R197). `CP` of an ended run may lie beyond a stream loaded after it (log 11), so its bound
is asked of `RUN` and `FAULT`. -/
structure Invariant (s : State) : Prop where
  blen_le : s.blen.toNat ≤ Config.bufCap
  lcnt_le : s.lcnt.toNat ≤ Config.nReg
  consumed_le : s.consumed.toNat ≤ 256
  consumed_mod : s.consumed.toNat % 8 = 0
  buf_wf : s.buf.wf = true
  prog_le : s.prog.length ≤ Config.cmdCap
  cp_le : s.state = .run ∨ s.state = .fault → s.cp.toNat ≤ s.prog.length
  cause_iff : s.cause ≠ .none ↔ s.state = .fault
  no_fault : s.cause = .none → s.fcp = 0#16 ∧ s.fcmd = 0#32
  fault_cp : s.state = .fault → s.fcp = s.cp
  overrun : s.cause = .fetchOverrun → s.fcp.toNat = s.prog.length ∧ s.fcmd = 0#32

/-- A safe end of a run: `DONE`, no fault recorded (70_reset_and_hazards.md R220, 60_exceptions.md R197). -/
def EndedSafely (s : State) : Prop := s.state = .done ∧ s.cause = .none

/-! ### Runs -/

/-- `k` steps of the unit, each from `RUN`, lead from `s` to `t`. -/
def runsTo : Nat → State → State → Prop
  | 0, s, t => t = s
  | k + 1, s, t => s.state = .run ∧ ∃ u, step s = .next u ∧ runsTo k u t

end Sys2Proof.Machine
end

