-- ==== Sys2Proof/Certificates/Slice0/Obligations.lean ====
section
/-! DEFINITION. What the provers are asked to settle about the SWAR Lane Unit. Each docstring names the rule of
spec/ a statement formalises. -/

open Sys2Proof Sys2Proof.Machine

/-! ### Command words: 30_encoding.md -/

/-- The map from legal commands to words is inverted by the decoder: every operand of every command, at every value
its encoding admits (30_encoding.md R72, R73; 92_eei_decisions.md D6). -/
def Obligations.DecodeInvertsEncode : Prop :=
  ∀ i : Instr, i.wellFormed = true → decode (encode i) = .ok i

/-- A word that decodes is the word of the command it decodes to, so no two words are one command and no bit of a
legal word is dropped (30_encoding.md R73, R77, R82; 92_eei_decisions.md D6). -/
def Obligations.EncodeInvertsDecode : Prop :=
  ∀ (w : Cmd) (i : Instr), decode w = .ok i → encode i = w ∧ i.wellFormed = true

/-- 30_encoding.md R73: the five checks in their order, on the word alone, and what the step does with their
outcome. -/
def Obligations.DecodeChecksInOrder : Prop :=
  ∀ w : Cmd,
    ((∀ o : Op, opField w ≠ o.code) → decode w = .error .illegalOpcode) ∧
    (∀ o : Op, opField w = o.code →
      (w &&& o.format.reserved ≠ 0#32 → decode w = .error .reservedField) ∧
      (w &&& o.format.reserved = 0#32 →
        (o = .rdc → 6 < (raField w).toNat → decode w = .error .illegalCsr) ∧
        (o = .wrc → 1 < (raField w).toNat → decode w = .error .illegalCsr) ∧
        (o = .wrc → (raField w).toNat = 0 → 263 < (imm9Field w).toNat → decode w = .error .csrRange) ∧
        (o = .wrc → (raField w).toNat = 1 → 32 < (imm9Field w).toNat → decode w = .error .csrRange) ∧
        ((o = .rdc → (raField w).toNat ≤ 6) →
          (o = .wrc → (raField w).toNat = 0 ∧ (imm9Field w).toNat ≤ 263
            ∨ (raField w).toNat = 1 ∧ (imm9Field w).toNat ≤ 32) →
          ∃ i : Instr, decode w = .ok i ∧ i.op = o))) ∧
    ∀ s : State, s.state = .run → s.prog[s.cp.toNat]? = some w →
      (∀ c : Cause, decode w = .error c → ∃ t, step s = .next t ∧ FaultsWith c w s t) ∧
      (∀ i : Instr, decode w = .ok i → step s = exec i s)

/-- 30_encoding.md R81 (the 37 unassigned opcodes fault with cause 1 whatever the other bits) and R83 (`match` and
`mask` of opcode_table.json, row by row, and what a word that matches no row faults with). -/
def Obligations.UnassignedOpcodesAndTableRows : Prop :=
  (∀ w : Cmd, decode w = .error .illegalOpcode ↔
    (opField w).toNat ∈ [0x00, 0x05, 0x06, 0x07, 0x0E, 0x0F, 0x13, 0x14, 0x15, 0x16, 0x17]
      ++ [0x23, 0x24, 0x25, 0x26, 0x27, 0x29, 0x2A, 0x2B, 0x2C, 0x2D, 0x2E, 0x2F]
      ++ [0x32, 0x33, 0x34, 0x35, 0x36, 0x37, 0x38, 0x39, 0x3A, 0x3B, 0x3C, 0x3D, 0x3E, 0x3F]) ∧
  decode 0x00000000#32 = .error .illegalOpcode ∧ decode 0xFFFFFFFF#32 = .error .illegalOpcode ∧
  (∀ (s : State) (w : Cmd), s.state = .run → s.prog[s.cp.toNat]? = some w → decode w = .error .illegalOpcode →
    ∃ t, step s = .next t ∧ FaultsWith .illegalOpcode w s t) ∧
  Op.all.map (fun o => (o.pattern, o.mask)) =
    [(0x04000000#32, 0xFFFFFFFF#32), (0x08000000#32, 0xFFFFFFFF#32), (0x0C000000#32, 0xFC00FFFF#32),
     (0x10000000#32, 0xFFE0FE00#32), (0x20000000#32, 0xFFFFFFFF#32), (0x24000000#32, 0xFFFFFFFF#32),
     (0x28000000#32, 0xFC1FFF00#32), (0x2C000000#32, 0xFC00FFFF#32), (0x30000000#32, 0xFC1FFF00#32),
     (0x34000000#32, 0xFC1FFF00#32), (0x40000000#32, 0xFC0007FF#32), (0x44000000#32, 0xFC0007FF#32),
     (0x48000000#32, 0xFC0007FF#32)]
    ++ [(0x60000000#32, 0xFC0007FF#32), (0x64000000#32, 0xFC0007FF#32), (0x68000000#32, 0xFC0007FF#32),
     (0x6C000000#32, 0xFC0007FF#32), (0x70000000#32, 0xFC0007FF#32), (0x74000000#32, 0xFC0007FF#32),
     (0x78000000#32, 0xFC0007FF#32), (0x7C000000#32, 0xFC0007FF#32), (0x80000000#32, 0xFC00FFFF#32),
     (0x84000000#32, 0xFC00FFFF#32), (0x88000000#32, 0xFC00FFFF#32), (0xA0000000#32, 0xFC00003F#32),
     (0xC0000000#32, 0xFC00FFFF#32), (0xC4000000#32, 0xFC00FFFF#32)] ∧
  (∀ (w : Cmd) (o : Op), w &&& o.mask = o.pattern ↔ opField w = o.code ∧ w &&& o.format.reserved = 0#32) ∧
  (∀ w : Cmd, (∀ o : Op, w &&& o.mask ≠ o.pattern) →
    decode w = .error .illegalOpcode ∧ (∀ o : Op, opField w ≠ o.code)
      ∨ decode w = .error .reservedField ∧ (∃ o : Op, opField w = o.code))

/-- The example words of 30_encoding.md R84, one or more of each format, decode to the commands R84 writes beside
them. -/
def Obligations.ExampleWordsDecode : Prop :=
  decode 0x20000000#32 = .ok .pack ∧ decode 0x88830000#32 = .ok (.popc 4 3) ∧
  decode 0x40611000#32 = .ok (.eq 3 1 2) ∧ decode 0xA08110C0#32 = .ok (.sel 4 1 2 3) ∧
  decode 0x28400020#32 = .ok (.bci 2 0x20#8) ∧ decode 0x30000008#32 = .ok (.ldl 0 8#8) ∧
  decode 0x34A00008#32 = .ok (.stl 5 8#8) ∧ decode 0x0CC20000#32 = .ok (.rdc 6 .consumed) ∧
  decode 0x1000000D#32 = .ok (.wrc .blen 13#9)

/-- 30_encoding.md R85: the three pseudo-instructions, as lines and by their effect; besides, every command's line
(R84) assembles to that command. -/
def Obligations.PseudoInstructionsExpand : Prop :=
  (∀ i : Instr, assemble i.asm = some i) ∧
  (∀ rd ra : Reg, assemble { mnemonic := .mov, operands := [.reg rd, .reg ra] } = some (.max rd ra ra)) ∧
  (∀ rd : Reg, assemble { mnemonic := .zero, operands := [.reg rd] } = some (.bci rd 0x00#8)) ∧
  (∀ rd : Reg, assemble { mnemonic := .ones, operands := [.reg rd] } = some (.bci rd 0xFF#8)) ∧
  (∀ (rd ra : Reg) (s : State), CompletesWith (.mov rd ra) rd (s.reg ra) s) ∧
  (∀ (rd : Reg) (s : State), CompletesWith (.zero rd) rd 0x0000000000000000#64 s) ∧
  (∀ (rd : Reg) (s : State), CompletesWith (.ones rd) rd 0xFFFFFFFFFFFFFFFF#64 s)

/-! ### The step, faults and the life of a run: 10_state.md, 60_exceptions.md, 70_reset_and_hazards.md -/

/-- In `RUN`, when the word at `PROG[CP]` decodes, the step is that command's effect and nothing is added around it
(70_reset_and_hazards.md R218, 20_memory.md R60, R64). -/
def Obligations.StepRunsDecodedCommand : Prop :=
  ∀ (s : State) (w : Cmd) (i : Instr), s.state = .run → s.prog[s.cp.toNat]? = some w → decode w = .ok i →
    step s = exec i s

/-- 60_exceptions.md R187 to R190: the must-be-zero bits of the seven formats, which every command has; a malformed
word at `PROG[CP]` takes its fault, by the conditions those rules give on the word, and the entry changes nothing
but the four fault registers. -/
def Obligations.MalformedWordsTrap : Prop :=
  [Format.z, .r2, .cRead, .r3, .r4, .i8, .cWrite].map Format.reserved
    = [0x03FFFFFF#32, 0x0000FFFF#32, 0x0000FFFF#32, 0x000007FF#32, 0x0000003F#32, 0x001FFF00#32, 0x03E0FE00#32] ∧
  (∀ o : Op, ∃ w : Cmd, opField w = o.code ∧ w &&& o.format.reserved ≠ 0#32) ∧
  ∀ (s : State) (w : Cmd), s.state = .run → s.prog[s.cp.toNat]? = some w →
    ((∀ o : Op, opField w ≠ o.code) →
      ∃ t, step s = .next t ∧ FaultsWith .illegalOpcode w s t) ∧
    ((∃ o : Op, opField w = o.code ∧ w &&& o.format.reserved ≠ 0#32) →
      ∃ t, step s = .next t ∧ FaultsWith .reservedField w s t) ∧
    (opField w = 0x03#6 ∧ w &&& 0x0000FFFF#32 = 0#32 ∧ 7 ≤ (raField w).toNat
        ∨ opField w = 0x04#6 ∧ w &&& 0x03E0FE00#32 = 0#32 ∧ 2 ≤ (raField w).toNat →
      ∃ t, step s = .next t ∧ FaultsWith .illegalCsr w s t) ∧
    (opField w = 0x04#6 ∧ w &&& 0x03E0FE00#32 = 0#32 ∧
        ((raField w).toNat = 0 ∧ 264 ≤ (imm9Field w).toNat ∨ (raField w).toNat = 1 ∧ 33 ≤ (imm9Field w).toNat) →
      ∃ t, step s = .next t ∧ FaultsWith .csrRange w s t)

/-- 60_exceptions.md R191: at `CP = NCMD` in `RUN` the step takes `FETCH_OVERRUN` with `FCP = NCMD`, `FCMD = 0`;
the stream neither wraps nor ends by itself. -/
def Obligations.FetchOverrunTraps : Prop :=
  ∀ s : State, s.state = .run → s.cp.toNat = s.prog.length →
    ∃ t, step s = .next t ∧ FaultsWith .fetchOverrun 0#32 s t ∧ t.fcp.toNat = s.prog.length

/-- 60_exceptions.md R195: fault entry writes `CAUSE`, `FCP`, `FCMD`, `STATE` and nothing else, and in `FAULT` the
unit has no step. -/
def Obligations.FaultEntryLatchesAndStops : Prop :=
  ∀ (c : Cause) (w : Cmd) (s : State),
    FaultsWith c w s (raiseFault c w s) ∧ trap c w s = .next (raiseFault c w s)
      ∧ step (raiseFault c w s) = .fault .faulted

/-- 60_exceptions.md R196: a step that ends in `FAULT` has had no effect but fault entry, whichever word it met. -/
def Obligations.FaultsArePrecise : Prop :=
  ∀ s t : State, s.state = .run → step s = .next t → t.state = .fault →
    t.cause ≠ .none ∧ FaultsWith t.cause t.fcmd s t

/-- 60_exceptions.md R197: whatever the unit or the host does in `FAULT`, only a reset leaves it; `start` is ignored,
no write is taken, `CAUSE`, `FCP` and `FCMD` keep describing the first fault. -/
def Obligations.OnlyResetLeavesFault : Prop :=
  (∀ (e : Event) (s t : State), s.state = .fault → sysStep e s = .next t →
    (∃ resetX resetBuf, e = .host (.reset resetX resetBuf)) ∨ t = s) ∧
  (∀ s : State, s.state = .fault → step s = .fault .faulted ∧ hostAct .start s = .next s ∧
    ∀ (resetX : Vector Word 32) (resetBuf : Vector Byte 263),
      ∃ t, hostAct (.reset resetX resetBuf) s = .next t ∧ t.state = .idle)

/-- 10_state.md R32: the codes of `STATE`; its transitions, over every event of the two agents, and no others; each
transition taken; outside `RUN` the unit has no step; `RDC` of `STATE` inside a run returns 1. -/
def Obligations.StateTransitions : Prop :=
  [RunState.idle, .run, .done, .fault].map RunState.code = [0#2, 1#2, 2#2, 3#2] ∧
  (∀ (e : Event) (s t : State), sysStep e s = .next t → t.state ≠ s.state →
    ((∃ resetX resetBuf, e = .host (.reset resetX resetBuf)) ∧ t.state = .idle) ∨
    (e = .host .start ∧ (s.state = .idle ∨ s.state = .done) ∧ t.state = .run) ∨
    (e = .unit ∧ s.state = .run ∧ t.state = .done ∧
      ∃ w, s.prog[s.cp.toNat]? = some w ∧ decode w = .ok .endRun) ∨
    (e = .unit ∧ s.state = .run ∧ t.state = .fault)) ∧
  (∀ s t : State, step s = .next t → s.state = .run) ∧
  (∀ (s : State) (resetX : Vector Word 32) (resetBuf : Vector Byte 263),
    ∃ t, hostAct (.reset resetX resetBuf) s = .next t ∧ t.state = .idle) ∧
  (∀ s : State, s.state = .idle ∨ s.state = .done → ∃ t, hostAct .start s = .next t ∧ t.state = .run) ∧
  (∀ (s : State) (w : Cmd), s.state = .run → s.prog[s.cp.toNat]? = some w → decode w = .ok .endRun →
    ∃ t, step s = .next t ∧ t.state = .done) ∧
  (∀ (s : State) (w : Cmd) (c : Cause), s.state = .run → s.prog[s.cp.toNat]? = some w → decode w = .error c →
    ∃ t, step s = .next t ∧ t.state = .fault) ∧
  (∀ s : State, s.state = .run → s.cp.toNat = s.prog.length → ∃ t, step s = .next t ∧ t.state = .fault) ∧
  (∀ (rd : Reg) (s : State), s.state = .run → CompletesWith (.rdc rd .state) rd 1#64 s)

/-- 30_encoding.md R74: a legal command other than `END` advances `CP` by one, `END` and a faulting word leave it. -/
def Obligations.CommandPointerAdvance : Prop :=
  (∀ (i : Instr) (s t : State), i.wellFormed = true → exec i s = .next t →
    t.cp = if i = .endRun then s.cp else s.cp + 1#16) ∧
  (∀ s t : State, step s = .next t → t.state = .fault →
    t.cp = s.cp ∧ SameRegs s t ∧ SameBuf s t ∧ SameLengths s t)

/-- Who writes what (10_state.md R28 to R35, 20_memory.md R64): over every legal command, `BLEN` is written by
`WRC` only, `LCNT` by `PACK` and `WRC`, `CONSUMED` by `PACK`, `STATE` by `END`; the fault registers and the stream
by none. -/
def Obligations.ControlRegistersHaveTheirWriters : Prop :=
  ∀ (i : Instr) (s t : State), i.wellFormed = true → exec i s = .next t →
    SameFaultRegs s t ∧ t.prog = s.prog ∧
    (t.blen ≠ s.blen → ∃ v, i = .wrc .blen v) ∧
    (t.lcnt ≠ s.lcnt → i = .pack ∨ ∃ v, i = .wrc .lcnt v) ∧
    (t.consumed ≠ s.consumed → i = .pack) ∧
    (t.state ≠ s.state → i = .endRun ∧ t.state = .done)

/-- 70_reset_and_hazards.md R210: from every state, `reset` with any contents of `x` and `BUF` leaves the control
state 0 and `IDLE`, and those contents; nothing else leaves `FAULT`; a run begins at `CP = 0`. -/
def Obligations.ResetLeavesControlStateZero : Prop :=
  (∀ (s : State) (resetX : Vector Word 32) (resetBuf : Vector Byte 263),
    ∃ t, hostAct (.reset resetX resetBuf) s = .next t ∧
      t.blen = 0#9 ∧ t.lcnt = 0#6 ∧ t.consumed = 0#9 ∧ t.cause = .none ∧ t.fcp = 0#16 ∧ t.fcmd = 0#32
      ∧ t.cp = 0#16 ∧ t.state = .idle ∧ (∀ r : Reg, t.reg r = resetX[r.val])
      ∧ (∀ a : Fin 263, t.readByte a.val = resetBuf[a.val])) ∧
  (∀ (e : Event) (s t : State), s.state = .fault → sysStep e s = .next t → t.state ≠ .fault →
    ∃ resetX resetBuf, e = .host (.reset resetX resetBuf)) ∧
  (∀ (e : Event) (s t : State), s.state ≠ .run → sysStep e s = .next t → t.state = .run →
    e = .host .start ∧ t.cp = 0#16)

/-- The invariant holds after reset, whatever reset leaves in `x` and `BUF` (10_state.md R41; 93_implementation_defined.md
U1), and `State.reset` is one of the states reset can leave. Which one it is, and that the stream is empty then, is
the model's choice (logs 1, 2 and 4). -/
def Obligations.ResetMeetsInvariant : Prop :=
  (∀ (resetX : Vector Word 32) (resetBuf : Vector Byte 263),
    Invariant (State.resetWith resetX (Memory.ofBytes resetBuf))) ∧ Invariant State.reset ∧
  (∃ resetX resetBuf, State.reset = State.resetWith resetX (Memory.ofBytes resetBuf))

/-- Every step of the unit keeps the invariant: the bounds of U8, the canonical buffer, `CP <= NCMD`, the fault
registers telling of the one fault since reset (93_implementation_defined.md U8; 10_state.md R28 to R35). -/
def Obligations.StepKeepsInvariant : Prop :=
  ∀ s t : State, Invariant s → step s = .next t → Invariant t

/-- Every host action keeps the invariant (70_reset_and_hazards.md R216, R217; 93_implementation_defined.md U8). -/
def Obligations.HostActionKeepsInvariant : Prop :=
  ∀ (a : HostAction) (s t : State), Invariant s → hostAct a s = .next t → Invariant t

/-- Whatever the host loads and does from a reset on, and however many steps the unit takes, the invariant holds:
`BLEN <= 263`, `LCNT <= 32`, `CONSUMED <= 256` and a multiple of 8 in every reachable state
(93_implementation_defined.md U8), and no reachable step meets a fault of the model's own. -/
def Obligations.EveryReachableStateIsCoherent : Prop :=
  ∀ (resetX : Vector Word 32) (resetBuf : Vector Byte 263) (es : List Event) (t : State),
    sysRun es (State.resetWith resetX (Memory.ofBytes resetBuf)) = .next t →
      Invariant t ∧ (t.state = .run → ∃ u, step t = .next u)

/-- 70_reset_and_hazards.md R218: `start` from `IDLE` or `DONE` sets `CP = 0`, `STATE = RUN` and nothing else, is
without effect in `RUN` and `FAULT`, and the run it begins ends within `NCMD + 1` steps. -/
def Obligations.StartedRunEnds : Prop :=
  ∀ s : State, Invariant s →
    (s.state = .idle ∨ s.state = .done →
      ∃ t, hostAct .start s = .next t ∧ t.state = .run ∧ t.cp = 0#16 ∧ SameRegs s t ∧ SameBuf s t
        ∧ SameLengths s t ∧ SameFaultRegs s t ∧ t.cause = .none ∧ t.fcp = 0#16 ∧ t.fcmd = 0#32
        ∧ t.prog = s.prog ∧
        ∃ k u, k ≤ s.prog.length + 1 ∧ runsTo k t u ∧ (u.state = .done ∨ u.state = .fault)) ∧
    (s.state = .run ∨ s.state = .fault → hostAct .start s = .next s)

/-- 70_reset_and_hazards.md R226, R220: a run that began at `CP = 0` and ends in `DONE` has taken `CP_end + 1` steps,
`CP` is the index of its `END` and no fault is recorded. -/
def Obligations.DoneRunTakesCpPlusOneSteps : Prop :=
  ∀ (k : Nat) (s t : State), Invariant s → s.cp = 0#16 → s.state = .run → runsTo k s t → t.state = .done →
    k = t.cp.toNat + 1 ∧ EndedSafely t ∧ t.prog = s.prog ∧
      ∃ w, s.prog[t.cp.toNat]? = some w ∧ decode w = .ok .endRun

/-- 70_reset_and_hazards.md R226, 00_scope.md R14: two states that differ only in registers and buffer step alike:
both answer and agree on all control state, or both stop for the same reason. No control flow, length, fault or
fault report depends on data. -/
def Obligations.ControlIgnoresData : Prop :=
  ∀ s t : State, SameControl s t →
    (∃ s' t', step s = .next s' ∧ step t = .next t' ∧ SameControl s' t') ∨
    (∃ r, step s = .fault r ∧ step t = .fault r)

/-! ### Lanes and flag words: 00_scope.md, 10_state.md -/

/-- 00_scope.md R10: lane `i` is bits `[8i+7:8i]`, bit `k` of it is bit `8i + k` of the word, `mkword` is the sum of
`vi * 2^(8i)`, and `map1`, `map2` work lane by lane. -/
def Obligations.LaneNumbering : Prop :=
  (∀ (w : Word) (i : Fin 8), lane w i = BitVec.ofNat 8 (w.toNat / 2 ^ (8 * i.val))) ∧
  (∀ (w : Word) (i k : Fin 8), (lane w i).getLsbD k.val = w.getLsbD (8 * i.val + k.val)) ∧
  (∀ (f : Fin 8 → Byte) (i : Fin 8), lane (mkword f) i = f i) ∧
  (∀ f : Fin 8 → Byte,
    (mkword f).toNat = ((List.finRange 8).map fun i => (f i).toNat * 2 ^ (8 * i.val)).sum) ∧
  (∀ (f : Byte → Byte) (a : Word) (i : Fin 8), lane (map1 f a) i = f (lane a i)) ∧
  (∀ (f : Byte → Byte → Byte) (a b : Word) (i : Fin 8), lane (map2 f a b) i = f (lane a i) (lane b i))

/-- 10_state.md R23: for the comparator, arithmetic, bit and selection functions, result lane `i` is a function of
lane `i` of each operand only. -/
def Obligations.LanesAreIndependent : Prop :=
  (∀ f ∈ [fEqual, fLess, fGreater, fAddWrap, fSubWrap, fAddSat, fSubSat, fAbsDiff, fMin, fMax, fAverage],
    ∀ (a b a' b' : Word) (i : Fin 8), lane a i = lane a' i → lane b i = lane b' i →
      lane (f a b) i = lane (f a' b') i) ∧
  (∀ f ∈ [fSwapNibbles, fReverseBits, fPopcount], ∀ (a a' : Word) (i : Fin 8), lane a i = lane a' i →
    lane (f a) i = lane (f a') i) ∧
  (∀ (a b f a' b' f' : Word) (i : Fin 8), lane a i = lane a' i → lane b i = lane b' i → lane f i = lane f' i →
    lane (fSelect a b f) i = lane (fSelect a' b' f') i)

/-- 10_state.md R24 and 30_encoding.md R86: comparators give high-bit flag words; selection and gather read bit 0 of
each flag lane only, so a high-bit flag word selects `b` everywhere and gathers to 0; `POPC` and `REVB` turn a
high-bit flag word into the low-bit one; `MIN`, `MAX` and `SUBW` from `HIGHBITS` are AND, OR and NOT on high-bit flag
words. -/
def Obligations.FlagWordPolarityAndLogic : Prop :=
  (∀ v c : Word, highBitFlag (fEqual v c) = true ∧ highBitFlag (fLess v c) = true
    ∧ highBitFlag (fGreater v c) = true) ∧
  (∀ a b f : Word, fSelect a b f = fSelect a b (f &&& Config.lowBits)) ∧
  (∀ f : Word, fGather f = fGather (f &&& Config.lowBits)) ∧
  (∀ f : Word, highBitFlag f = true →
    (∀ i : Fin 8, lowFlag f i = false) ∧ (∀ a b : Word, fSelect a b f = b) ∧ fGather f = 0x00#8 ∧
    (∀ i : Fin 8, lane (fPopcount f) i = if lane f i = 0x80#8 then 0x01#8 else 0x00#8) ∧
    fReverseBits f = fPopcount f ∧
    fSubWrap Config.highBits f = ~~~f &&& Config.highBits) ∧
  (∀ f g : Word, highBitFlag f = true → highBitFlag g = true →
    fMin f g = (f &&& g) ∧ fMax f g = (f ||| g))

/-! ### Lane codec and broadcast: 40_codec.md -/

/-- 40_codec.md R108, R110: byte `j` of a group is lane `j` of the word, the value is `b0 + b1*2^8 + ..`, and the two
conversions are inverse. -/
def Obligations.BytesAndLanesConvert : Prop :=
  (∀ (bs : Vector Byte 8) (j : Fin 8), lane (bytesToLane bs) j = bs[j.val]) ∧
  (∀ bs : Vector Byte 8,
    (bytesToLane bs).toNat = ((List.finRange 8).map fun j => (bs[j.val]).toNat * 2 ^ (8 * j.val)).sum) ∧
  (∀ (w : Word) (j : Fin 8), (laneToBytes w)[j.val] = lane w j) ∧
  (∀ bs : Vector Byte 8, laneToBytes (bytesToLane bs) = bs) ∧
  (∀ w : Word, bytesToLane (laneToBytes w) = w)

/-- 40_codec.md R105: every lane of a broadcast is the byte; it is the product with `LOWBITS`, which never wraps. -/
def Obligations.BroadcastFillsEveryLane : Prop :=
  (∀ (b : Byte) (i : Fin 8), lane (fBroadcast b) i = b) ∧
  (∀ b : Byte, fBroadcast b = broadcastFormula b) ∧
  (∀ b : Byte, b.toNat * Config.lowBits.toNat < 2 ^ 64) ∧
  fBroadcast 0x00#8 = 0x0000000000000000#64 ∧ fBroadcast 0xFF#8 = 0xFFFFFFFFFFFFFFFF#64 ∧
  fBroadcast 0x80#8 = Config.highBits ∧ fBroadcast 0x01#8 = Config.lowBits

/-- 40_codec.md R101, R103: `F_pack` makes `floor(len/8)` words, byte `8i + j` in lane `j` of word `i`, counts `8n`
bytes consumed, never looks at the remainder and is total; `F_unpack` writes the bytes out again in order. -/
def Obligations.PackAndUnpackSequences : Prop :=
  (∀ bs : List Byte, (fPack bs).1.length = bs.length / 8 ∧ (fPack bs).2 = 8 * (bs.length / 8)) ∧
  (∀ (bs : List Byte) (i : Nat) (j : Fin 8), i < bs.length / 8 →
    ∃ w b, (fPack bs).1[i]? = some w ∧ bs[8 * i + j.val]? = some b ∧ lane w j = b) ∧
  (∀ bs : List Byte, fPack (bs.take (fPack bs).2) = fPack bs) ∧
  (∀ bs : List Byte, bs.length < 8 → fPack bs = ([], 0)) ∧
  (∀ ws : List Word, (fUnpack ws).length = 8 * ws.length) ∧
  (∀ (ws : List Word) (i : Nat) (w : Word) (j : Fin 8), ws[i]? = some w →
    (fUnpack ws)[8 * i + j.val]? = some (lane w j)) ∧
  fUnpack [] = []

/-- 40_codec.md R112: `unpack(pack(S).lanes) + S[consumed:] = S` for every sequence, `pack` of an unpacked sequence
gives it back, and `PACK` followed by `UNPACK` leaves `BUF` byte for byte as it was. -/
def Obligations.PackUnpackRoundTrip : Prop :=
  (∀ bs : List Byte, fUnpack (fPack bs).1 ++ bs.drop (fPack bs).2 = bs) ∧
  (∀ ws : List Word, fPack (fUnpack ws) = (ws, 8 * ws.length)) ∧
  (∀ s : State, Invariant s →
    ∃ t u, exec .pack s = .next t ∧ exec .unpack t = .next u ∧ u.buf = s.buf ∧ SameBuf s u)

/-- 40_codec.md R102: `PACK` from every state of a legal length, whole: `F_pack` of `BUF[0 .. BLEN-1]` into
`x[0..n-1]`, `LCNT`, `CONSUMED`, the other registers, `BUF` and `BLEN` unchanged. -/
def Obligations.PackCommand : Prop :=
  HasFormatZ 0x08#6 .pack ∧
  ∀ s : State, s.blen.toNat ≤ 263 →
    ∃ t, exec .pack s = .next t ∧
      (∀ (r : Reg) (j : Fin 8), r.val < s.blen.toNat / 8 →
        lane (t.reg r) j = s.readByte (8 * r.val + j.val)) ∧
      (∀ r : Reg, s.blen.toNat / 8 ≤ r.val → t.reg r = s.reg r) ∧
      t.lcnt.toNat = s.blen.toNat / 8 ∧ t.consumed.toNat = 8 * (s.blen.toNat / 8) ∧ t.blen = s.blen ∧
      SameBuf s t ∧ Advances s t ∧
      fPack (s.buf.readBytes 0 s.blen.toNat) = (firstRegs t t.lcnt.toNat, t.consumed.toNat)

/-- 40_codec.md R104: `UNPACK` from every state of a legal count: `F_unpack(x[0..n-1])` in `BUF[0 .. 8n-1]`, every
other byte, every register and every length unchanged. -/
def Obligations.UnpackCommand : Prop :=
  HasFormatZ 0x09#6 .unpack ∧
  ∀ s : State, s.buf.wf = true → s.lcnt.toNat ≤ 32 →
    ∃ t, exec .unpack s = .next t ∧
      (∀ (r : Reg) (j : Fin 8), r.val < s.lcnt.toNat →
        t.readByte (8 * r.val + j.val) = lane (s.reg r) j) ∧
      (∀ a : Nat, 8 * s.lcnt.toNat ≤ a → t.readByte a = s.readByte a) ∧
      t.buf.readBytes 0 (8 * s.lcnt.toNat) = fUnpack (firstRegs s s.lcnt.toNat) ∧
      SameRegs s t ∧ SameLengths s t ∧ Advances s t

/-- The model's choice (log 9), not a rule: with a length no run reaches (93_implementation_defined.md U8), a block
command stops by name instead of reaching registers and bytes that do not exist (20_memory.md R50, R51). -/
def Obligations.IllegalLengthsStop : Prop :=
  (∀ s : State, 263 < s.blen.toNat → exec .pack s = .fault .blockRange) ∧
  (∀ s : State, 32 < s.lcnt.toNat → exec .unpack s = .fault .blockRange)

/-- 40_codec.md R106, R109: `BCI` broadcasts its immediate; `LDL` loads the 8 bytes at any address 0..255, whatever
`BLEN` is. One register changes. -/
def Obligations.BroadcastImmediateAndLoad : Prop :=
  HasFormatI8 0x0A#6 .bci ∧ HasFormatI8 0x0C#6 .ldl ∧
  (∀ (rd : Reg) (imm8 : Byte) (s : State), CompletesWith (.bci rd imm8) rd (fBroadcast imm8) s) ∧
  (∀ (rd : Reg) (imm8 : Byte) (s : State),
    ∃ v : Word, (∀ j : Fin 8, lane v j = s.readByte (groupAddr imm8 + j.val)) ∧
      CompletesWith (.ldl rd imm8) rd v s) ∧
  (∀ (imm8 : Byte) (j : Fin 8), groupAddr imm8 = imm8.toNat ∧ groupAddr imm8 + j.val ≤ 262)

/-- 40_codec.md R111: `STL` writes the 8 lanes of `x[rs]` to `BUF[imm8 .. imm8+7]` and no other byte; no register
and no length changes. -/
def Obligations.StoreLaneWord : Prop :=
  HasFormatI8 0x0D#6 .stl ∧
  ∀ (rs : Reg) (imm8 : Byte) (s : State), s.buf.wf = true →
    ∃ t, exec (.stl rs imm8) s = .next t ∧
      (∀ j : Fin 8, t.readByte (groupAddr imm8 + j.val) = lane (s.reg rs) j) ∧
      (∀ a : Nat, a < groupAddr imm8 ∨ groupAddr imm8 + 8 ≤ a → t.readByte a = s.readByte a) ∧
      t.buf.wf = true ∧ SameRegs s t ∧ SameLengths s t ∧ Advances s t

/-- 20_memory.md R54, R55: `STL x, a` then `LDL y, a+1`, at any alignment: lanes 1..7 of the word reappear one lane
lower, and lane 7 is the byte after the store. -/
def Obligations.OverlappingStoreThenLoad : Prop :=
  ∀ (rx ry : Reg) (a : Byte) (s : State), s.buf.wf = true → a.toNat < 255 →
    ∃ t u, exec (.stl rx a) s = .next t ∧ exec (.ldl ry (a + 1#8)) t = .next u ∧
      (∀ (j : Fin 8) (h : j.val + 1 < 8), lane (u.reg ry) j = lane (s.reg rx) ⟨j.val + 1, h⟩) ∧
      lane (u.reg ry) 7 = s.readByte (a.toNat + 8)

/-! ### Comparators: 41_comparator.md -/

/-- 41_comparator.md R121: lane by lane 0x80 where the bytes are equal, the corrected word formula (90_conflicts.md
C2), and the laws. -/
def Obligations.EqualFunction : Prop :=
  ∀ v c : Word,
    (∀ i : Fin 8, lane (fEqual v c) i = if lane v i = lane c i then 0x80#8 else 0x00#8) ∧
    fEqual v c = equalFormula v c ∧ fEqual v c = fEqual c v ∧ fEqual v v = Config.highBits ∧
    (∀ (a b : Byte) (i : Fin 8),
      lane (fEqual (fBroadcast a) (fBroadcast b)) i = if a = b then 0x80#8 else 0x00#8)

/-- 41_comparator.md R123, R125: unsigned less and greater lane by lane, their word formulas and laws. -/
def Obligations.LessAndGreaterFunctions : Prop :=
  ∀ v c : Word,
    (∀ i : Fin 8, lane (fLess v c) i = if (lane v i).toNat < (lane c i).toNat then 0x80#8 else 0x00#8) ∧
    (∀ i : Fin 8, lane (fGreater v c) i = if (lane c i).toNat < (lane v i).toNat then 0x80#8 else 0x00#8) ∧
    fLess v c = lessFormula v c ∧ fGreater v c = greaterFormula v c ∧
    fLess v v = 0#64 ∧ fGreater v v = 0#64 ∧ fLess v c = fGreater c v ∧
    fGreater v c = (Config.highBits &&& ~~~(fLess v c ||| fEqual v c)) ∧
    (∀ (a b : Byte) (i : Fin 8),
      lane (fLess (fBroadcast a) (fBroadcast b)) i = (if a.toNat < b.toNat then 0x80#8 else 0x00#8) ∧
      lane (fGreater (fBroadcast a) (fBroadcast b)) i = (if b.toNat < a.toNat then 0x80#8 else 0x00#8))

/-- 41_comparator.md R120: the three results are high-bit flag words by the unsigned predicates, lane by lane,
pairwise disjoint, and together flag every lane once. -/
def Obligations.ComparatorTrichotomy : Prop :=
  ∀ v c : Word,
    (fEqual v c &&& ~~~Config.highBits) = 0#64 ∧ (fLess v c &&& ~~~Config.highBits) = 0#64 ∧
    (fGreater v c &&& ~~~Config.highBits) = 0#64 ∧
    (∀ i : Fin 8, ∀ f ∈ [fEqual, fLess, fGreater], lane (f v c) i = 0x80#8 ∨ lane (f v c) i = 0x00#8) ∧
    (∀ i : Fin 8, (lane (fEqual v c) i = 0x80#8 ↔ lane v i = lane c i) ∧
      (lane (fLess v c) i = 0x80#8 ↔ (lane v i).toNat < (lane c i).toNat) ∧
      (lane (fGreater v c) i = 0x80#8 ↔ (lane c i).toNat < (lane v i).toNat)) ∧
    (∀ (v' c' : Word) (i : Fin 8), lane v i = lane v' i → lane c i = lane c' i →
      ∀ f ∈ [fEqual, fLess, fGreater], lane (f v c) i = lane (f v' c') i) ∧
    (fEqual v c ||| fLess v c ||| fGreater v c) = Config.highBits ∧
    (fEqual v c &&& fLess v c) = 0#64 ∧ (fEqual v c &&& fGreater v c) = 0#64 ∧
    (fLess v c &&& fGreater v c) = 0#64

/-! ### Arithmetic: 42_arithmetic.md -/

/-- 42_arithmetic.md R131: addition modulo 256 in each lane, its word formula, its laws. -/
def Obligations.AddWrapFunction : Prop :=
  ∀ a b c : Word,
    (∀ i : Fin 8, (lane (fAddWrap a b) i).toNat = ((lane a i).toNat + (lane b i).toNat) % 256) ∧
    fAddWrap a b = addWrapFormula a b ∧ fAddWrap a b = fAddWrap b a ∧ fAddWrap a 0#64 = a ∧
    fAddWrap (fAddWrap a b) c = fAddWrap a (fAddWrap b c) ∧ fSubWrap (fAddWrap a b) b = a

/-- 42_arithmetic.md R133: subtraction modulo 256 in each lane, its word formula, its laws; not commutative. -/
def Obligations.SubWrapFunction : Prop :=
  (∀ a b : Word,
    (∀ i : Fin 8, ((lane (fSubWrap a b) i).toNat : Int) = ((lane a i).toNat - (lane b i).toNat : Int) % 256) ∧
    fSubWrap a b = subWrapFormula a b ∧ fSubWrap a a = 0#64 ∧ fSubWrap a 0#64 = a) ∧
  (∃ a b : Word, fSubWrap a b ≠ fSubWrap b a)

/-- 42_arithmetic.md R135: addition clamped at 255 in each lane, its word formula, monotonic in both operands,
commutative, 0 neutral; `F_subSat` does not undo it. -/
def Obligations.AddSatFunction : Prop :=
  (∀ a b : Word,
    (∀ i : Fin 8, (lane (fAddSat a b) i).toNat = min ((lane a i).toNat + (lane b i).toNat) 255) ∧
    fAddSat a b = addSatFormula a b ∧ fAddSat a b = fAddSat b a ∧ fAddSat a 0#64 = a) ∧
  (∀ a a' b : Word, (∀ i : Fin 8, (lane a i).toNat ≤ (lane a' i).toNat) →
    ∀ i : Fin 8, (lane (fAddSat a b) i).toNat ≤ (lane (fAddSat a' b) i).toNat
      ∧ (lane (fAddSat b a) i).toNat ≤ (lane (fAddSat b a') i).toNat) ∧
  (∃ a b : Word, fSubSat (fAddSat a b) b ≠ a)

/-- 42_arithmetic.md R137: subtraction clamped at 0 in each lane, its word formula, its laws; the two differences add
up to the absolute difference, one of them being 0. -/
def Obligations.SubSatFunction : Prop :=
  ∀ a b : Word,
    (∀ i : Fin 8,
      ((lane (fSubSat a b) i).toNat : Int) = max ((lane a i).toNat - (lane b i).toNat : Int) 0) ∧
    fSubSat a b = subSatFormula a b ∧
    (∀ i : Fin 8, (lane a i).toNat ≤ (lane b i).toNat → lane (fSubSat a b) i = 0x00#8) ∧
    fSubSat a a = 0#64 ∧ fSubSat a 0#64 = a ∧
    (∀ i : Fin 8, (lane (fSubSat a b) i).toNat + (lane (fSubSat b a) i).toNat = (lane (fAbsDiff a b) i).toNat
      ∧ (lane (fSubSat a b) i = 0x00#8 ∨ lane (fSubSat b a) i = 0x00#8))

/-- 42_arithmetic.md R139: the absolute difference of the unsigned bytes, its word formula, its laws. -/
def Obligations.AbsDiffFunction : Prop :=
  ∀ a b : Word,
    (∀ i : Fin 8,
      ((lane (fAbsDiff a b) i).toNat : Int) = |((lane a i).toNat : Int) - ((lane b i).toNat : Int)|) ∧
    fAbsDiff a b = absDiffFormula a b ∧ fAbsDiff a b = fAbsDiff b a ∧ fAbsDiff a a = 0#64 ∧
    fAbsDiff a 0#64 = a ∧ fAbsDiff a b = fSubWrap (fMax a b) (fMin a b)

/-- 42_arithmetic.md R141, R143: unsigned minimum and maximum in each lane, their word formulas, their laws; on
high-bit flag words AND and OR. -/
def Obligations.MinAndMaxFunctions : Prop :=
  (∀ a b c : Word,
    (∀ i : Fin 8, (lane (fMin a b) i).toNat = min (lane a i).toNat (lane b i).toNat
      ∧ (lane (fMax a b) i).toNat = max (lane a i).toNat (lane b i).toNat) ∧
    fMin a b = minFormula a b ∧ fMax a b = maxFormula a b ∧
    fMin a b = fMin b a ∧ fMax a b = fMax b a ∧
    fMin (fMin a b) c = fMin a (fMin b c) ∧ fMax (fMax a b) c = fMax a (fMax b c) ∧
    fMin a a = a ∧ fMax a a = a ∧ fMin a 0#64 = 0#64 ∧ fMin a 0xFFFFFFFFFFFFFFFF#64 = a ∧ fMax a 0#64 = a ∧
    (∀ i : Fin 8, (lane (fMin a b) i).toNat + (lane (fMax a b) i).toNat
      = (lane a i).toNat + (lane b i).toNat)) ∧
  (∀ f g : Word, highBitFlag f = true → highBitFlag g = true →
    ∀ i : Fin 8, lane (fMin f g) i = (lane f i &&& lane g i) ∧ lane (fMax f g) i = (lane f i ||| lane g i))

/-- 42_arithmetic.md R145: the floor of half the exact sum in each lane, the source's word formula, its laws. -/
def Obligations.AverageFunction : Prop :=
  (∀ a b : Word,
    (∀ i : Fin 8, (lane (fAverage a b) i).toNat = ((lane a i).toNat + (lane b i).toNat) / 2) ∧
    fAverage a b = averageFormula a b ∧ fAverage a a = a ∧ fAverage a b = fAverage b a ∧
    (∀ i : Fin 8, (lane (fMin a b) i).toNat ≤ (lane (fAverage a b) i).toNat
      ∧ (lane (fAverage a b) i).toNat ≤ (lane (fMax a b) i).toNat)) ∧
  fAverage (fBroadcast 0#8) (fBroadcast 255#8) = fBroadcast 127#8

/-- 60_exceptions.md R198: `ADDW` and `ADDS` of the same operands, then `EQ` of the two sums, flags exactly the lanes
that did not overflow, and raises nothing; where a lane overflows the wrapped sum is at most 254 and the saturated
sum 255. -/
def Obligations.OverflowDetectedByCommands : Prop :=
  (∀ (ra rb rp rq rd : Reg) (s : State), rp ≠ ra → rp ≠ rb → rq ≠ rp →
    ∃ t u v, exec (.addw rp ra rb) s = .next t ∧ exec (.adds rq ra rb) t = .next u ∧
      exec (.eq rd rp rq) u = .next v ∧ v.state = s.state ∧ SameFaultRegs s v ∧
      ∀ i : Fin 8, lane (v.reg rd) i
        = if (lane (s.reg ra) i).toNat + (lane (s.reg rb) i).toNat ≤ 255 then 0x80#8 else 0x00#8) ∧
  (∀ (a b : Word) (i : Fin 8), 255 < (lane a i).toNat + (lane b i).toNat →
    (lane (fAddWrap a b) i).toNat ≤ 254 ∧ (lane (fAddSat a b) i).toNat = 255)

/-! ### Bit operations, selection, lookup: 43_bitops.md, 44_select.md, 45_lookup.md -/

/-- 43_bitops.md R150, R152: nibble swap and bit reversal inside each byte, their word formulas, involutions that
commute; reversal turns flags 0x80 into 0x01. -/
def Obligations.SwapAndReverseFunctions : Prop :=
  ∀ w : Word,
    (∀ i : Fin 8, (lane (fSwapNibbles w) i).toNat
      = ((lane w i).toNat * 16 + (lane w i).toNat / 16) % 256) ∧
    (∀ i k : Fin 8, (lane (fReverseBits w) i).getLsbD k.val = (lane w i).getLsbD (7 - k.val)) ∧
    fSwapNibbles w = swapNibblesFormula w ∧ fReverseBits w = reverseBitsFormula w ∧
    fSwapNibbles (fSwapNibbles w) = w ∧ fReverseBits (fReverseBits w) = w ∧
    fSwapNibbles (fReverseBits w) = fReverseBits (fSwapNibbles w) ∧
    (∀ i : Fin 8, (lane w i = 0x80#8 → lane (fReverseBits w) i = 0x01#8)
      ∧ (lane w i = 0x00#8 → lane (fReverseBits w) i = 0x00#8))

/-- 43_bitops.md R154: the number of ones of each byte, the word formula, the sum over the lanes. -/
def Obligations.PopcountFunction : Prop :=
  ∀ w : Word,
    (∀ i : Fin 8, (lane (fPopcount w) i).toNat = (List.range 8).countP (fun k => (lane w i).getLsbD k)
      ∧ (lane (fPopcount w) i).toNat ≤ 8) ∧
    fPopcount w = popcountFormula w ∧
    ((List.finRange 8).map fun i => (lane (fPopcount w) i).toNat).sum
      = (List.range 64).countP (fun k => w.getLsbD k) ∧
    (∀ i : Fin 8, (lane w i = 0x80#8 → lane (fPopcount w) i = 0x01#8)
      ∧ (lane w i = 0x00#8 → lane (fPopcount w) i = 0x00#8))

/-- 44_select.md R160: bit 0 of each flag lane chooses, the word formula, the laws, and the minimum and maximum as
selections. -/
def Obligations.SelectFunction : Prop :=
  (∀ a b f : Word,
    (∀ i : Fin 8, lane (fSelect a b f) i = if (lane f i).getLsbD 0 = true then lane a i else lane b i) ∧
    fSelect a b f = selectFormula a b f ∧ fSelect a a f = a ∧ fSelect a b Config.lowBits = a ∧
    fSelect a b 0#64 = b ∧ fSelect a b f = fSelect b a (f ^^^ Config.lowBits) ∧
    fMin a b = fSelect a b (flagMask (fLess a b)) ∧ fMax a b = fSelect b a (flagMask (fLess a b))) ∧
  fSelect (fBroadcast 0x11#8) (fBroadcast 0x22#8) 0x0001000100010001#64 = 0x2211221122112211#64

/-- 45_lookup.md R165: the positions of the ones, ascending, each once; the table entry holds them and then the
filler; the appendix prints exactly these entries. -/
def Obligations.SetBitTable : Prop :=
  (∀ (v : Byte) (k : Nat), k ∈ positionsOfSetBits v ↔ k < 8 ∧ v.getLsbD k = true) ∧
  (∀ v : Byte, (positionsOfSetBits v).Pairwise (· < ·)) ∧
  (∀ v : Byte, (positionsOfSetBits v).length = (lanePopcount v).toNat) ∧
  (∀ (v : Byte) (k : Fin 8), k.val < (positionsOfSetBits v).length →
    (positionsOfSetBits v)[k.val]? = some (lane (sbt v) k).toNat) ∧
  (∀ (v : Byte) (k : Fin 8), (positionsOfSetBits v).length ≤ k.val → lane (sbt v) k = 0xFF#8) ∧
  (∀ v : Byte, (List.finRange 8).countP (fun k => (lane (sbt v) k).toNat < 8) = (positionsOfSetBits v).length) ∧
  positionsOfSetBits 0x00#8 = [] ∧ positionsOfSetBits 0xFF#8 = [0, 1, 2, 3, 4, 5, 6, 7] ∧
  positionsOfSetBits 0x84#8 = [2, 7] ∧
  (∀ v : Byte, Config.sbtTable[v.toNat]? = some (sbt v))

/-- 45_lookup.md R167, R168: bit 0 of lane `i` lands in bit `7 - i`; the gather multiplier does it; positions of the
gathered byte give the flagged lanes back as `7 - p`. -/
def Obligations.GatherFunction : Prop :=
  (∀ (w : Word) (i : Fin 8), (fGather w).getLsbD (7 - i.val) = (lane w i).getLsbD 0) ∧
  (∀ w : Word, fGather w = gatherFormula w) ∧
  (∀ (w : Word) (p : Nat), p ∈ positionsOfSetBits (fGather w) ↔
    ∃ i : Fin 8, p = 7 - i.val ∧ (lane w i).getLsbD 0 = true) ∧
  fGather 0#64 = 0x00#8 ∧ fGather Config.lowBits = 0xFF#8 ∧ fGather Config.highBits = 0x00#8 ∧
  fGather 0x0000000000000001#64 = 0x80#8 ∧ fGather 0x0100000000000000#64 = 0x01#8

/-! ### Commands: files 41 to 46 -/

/-- 41_comparator.md R122, R124, R126 and 42_arithmetic.md R132 to R146: the eleven commands of format R3, their words
and reserved bits, and from every state the one register write of the function, whatever registers coincide. -/
def Obligations.ThreeRegisterCommands : Prop :=
  (HasFormatR3 0x10#6 .eq ∧ Computes2 .eq fEqual) ∧ (HasFormatR3 0x11#6 .lt ∧ Computes2 .lt fLess) ∧
  (HasFormatR3 0x12#6 .gt ∧ Computes2 .gt fGreater) ∧
  (HasFormatR3 0x18#6 .addw ∧ Computes2 .addw fAddWrap) ∧
  (HasFormatR3 0x19#6 .subw ∧ Computes2 .subw fSubWrap) ∧
  (HasFormatR3 0x1A#6 .adds ∧ Computes2 .adds fAddSat) ∧
  (HasFormatR3 0x1B#6 .subs ∧ Computes2 .subs fSubSat) ∧
  (HasFormatR3 0x1C#6 .absd ∧ Computes2 .absd fAbsDiff) ∧
  (HasFormatR3 0x1D#6 .min ∧ Computes2 .min fMin) ∧ (HasFormatR3 0x1E#6 .max ∧ Computes2 .max fMax) ∧
  (HasFormatR3 0x1F#6 .avg ∧ Computes2 .avg fAverage)

/-- 40_codec.md R107, 43_bitops.md R151, R153, R155, 45_lookup.md R166, R169: the six commands of format R2. `BCR` and
`POSB` use bits [7:0] of the source; `GATH` writes a byte zero-extended. -/
def Obligations.TwoRegisterCommands : Prop :=
  (HasFormatR2 0x0B#6 .bcr ∧ Computes1 .bcr fun a => fBroadcast (a.setWidth 8)) ∧
  (HasFormatR2 0x20#6 .swapn ∧ Computes1 .swapn fSwapNibbles) ∧
  (HasFormatR2 0x21#6 .revb ∧ Computes1 .revb fReverseBits) ∧
  (HasFormatR2 0x22#6 .popc ∧ Computes1 .popc fPopcount) ∧
  (HasFormatR2 0x30#6 .gath ∧ Computes1 .gath fun a => (fGather a).setWidth 64) ∧
  (HasFormatR2 0x31#6 .posb ∧ Computes1 .posb fun a => sbt (a.setWidth 8))

/-- 44_select.md R161: `SEL`, its words and reserved bits [5:0], and from every state the one register write; the
three sources are read before `rd` is written. -/
def Obligations.SelectCommand : Prop :=
  (∀ rd ra rb rc : Reg,
    decode (0x28#6 ++ BitVec.ofNat 5 rd.val ++ BitVec.ofNat 5 ra.val ++ BitVec.ofNat 5 rb.val
      ++ BitVec.ofNat 5 rc.val ++ 0#6) = .ok (.sel rd ra rb rc)) ∧
  RejectsReserved 0x28#6 0x0000003F#32 ∧
  ∀ (rd ra rb rc : Reg) (s : State),
    CompletesWith (.sel rd ra rb rc) rd (fSelect (s.reg ra) (s.reg rb) (s.reg rc)) s

/-- 46_system.md R176, R177: `NOP` changes `CP` and nothing else; `END` sets `STATE = DONE`, changes nothing else,
and the unit has no further step. -/
def Obligations.NopAndEndCommands : Prop :=
  HasFormatZ 0x01#6 .nop ∧ HasFormatZ 0x02#6 .endRun ∧
  (∀ s : State, ∃ t, exec .nop s = .next t ∧ SameRegs s t ∧ SameBuf s t ∧ SameLengths s t ∧ Advances s t) ∧
  (∀ s : State, ∃ t, exec .endRun s = .next t ∧ t.state = .done ∧ t.cp = s.cp ∧ SameRegs s t ∧ SameBuf s t
    ∧ SameLengths s t ∧ SameFaultRegs s t ∧ t.prog = s.prog ∧ step t = .fault .done)

/-- 46_system.md R178: `RDC`, its words and faults, and from every state the one register write of the control
register zero-extended; inside a run `STATE` reads 1 and `CAUSE`, `FCP`, `FCMD` read 0. -/
def Obligations.ReadControlCommand : Prop :=
  (∀ (rd : Reg) (c : Csr),
    decode (0x03#6 ++ BitVec.ofNat 5 rd.val ++ c.number ++ 0#16) = .ok (.rdc rd c)) ∧
  RejectsReserved 0x03#6 0x0000FFFF#32 ∧
  (∀ w : Cmd, opField w = 0x03#6 → w &&& 0x0000FFFF#32 = 0#32 → 6 < (raField w).toNat →
    decode w = .error .illegalCsr) ∧
  [Csr.blen, .lcnt, .consumed, .state, .cause, .fcp, .fcmd].map Csr.number = [0#5, 1#5, 2#5, 3#5, 4#5, 5#5, 6#5] ∧
  (∀ (rd : Reg) (s : State),
    CompletesWith (.rdc rd .blen) rd (BitVec.ofNat 64 s.blen.toNat) s ∧
    CompletesWith (.rdc rd .lcnt) rd (BitVec.ofNat 64 s.lcnt.toNat) s ∧
    CompletesWith (.rdc rd .consumed) rd (BitVec.ofNat 64 s.consumed.toNat) s ∧
    CompletesWith (.rdc rd .state) rd (BitVec.ofNat 64 s.state.code.toNat) s ∧
    CompletesWith (.rdc rd .cause) rd (BitVec.ofNat 64 (causeCode s.cause).toNat) s ∧
    CompletesWith (.rdc rd .fcp) rd (BitVec.ofNat 64 s.fcp.toNat) s ∧
    CompletesWith (.rdc rd .fcmd) rd (BitVec.ofNat 64 s.fcmd.toNat) s) ∧
  (∀ (rd : Reg) (s : State), Invariant s → s.state = .run →
    CompletesWith (.rdc rd .state) rd 1#64 s ∧ CompletesWith (.rdc rd .cause) rd 0#64 s ∧
    CompletesWith (.rdc rd .fcp) rd 0#64 s ∧ CompletesWith (.rdc rd .fcmd) rd 0#64 s)

/-- 46_system.md R179: `WRC`, its words, its faults in their order, and from every state the one control register it
writes. -/
def Obligations.WriteControlCommand : Prop :=
  (∀ v : BitVec 9, v.toNat ≤ 263 → decode (0x04#6 ++ 0#5 ++ 0#5 ++ 0#7 ++ v) = .ok (.wrc .blen v)) ∧
  (∀ v : BitVec 9, v.toNat ≤ 32 → decode (0x04#6 ++ 0#5 ++ 1#5 ++ 0#7 ++ v) = .ok (.wrc .lcnt v)) ∧
  RejectsReserved 0x04#6 0x03E0FE00#32 ∧
  (∀ w : Cmd, opField w = 0x04#6 → w &&& 0x03E0FE00#32 = 0#32 →
    (1 < (raField w).toNat → decode w = .error .illegalCsr) ∧
    ((raField w).toNat = 0 → 263 < (imm9Field w).toNat → decode w = .error .csrRange) ∧
    ((raField w).toNat = 1 → 32 < (imm9Field w).toNat → decode w = .error .csrRange)) ∧
  (∀ (v : BitVec 9) (s : State), v.toNat ≤ 263 →
    ∃ t, exec (.wrc .blen v) s = .next t ∧ t.blen = v ∧ t.lcnt = s.lcnt ∧ t.consumed = s.consumed ∧
      SameRegs s t ∧ SameBuf s t ∧ Advances s t) ∧
  (∀ (v : BitVec 9) (s : State), v.toNat ≤ 32 →
    ∃ t, exec (.wrc .lcnt v) s = .next t ∧ t.lcnt.toNat = v.toNat ∧ t.blen = s.blen ∧ t.consumed = s.consumed ∧
      SameRegs s t ∧ SameBuf s t ∧ Advances s t) ∧
  (∀ (s : State) (w : Cmd) (c : Cause), s.state = .run → s.prog[s.cp.toNat]? = some w → opField w = 0x04#6 →
    decode w = .error c → ∃ t, step s = .next t ∧ FaultsWith c w s t)

/-! ### Host: 70_reset_and_hazards.md -/

/-- 70_reset_and_hazards.md R216, R217: in `IDLE` and `DONE` each host write has the one effect the table gives it,
and in `IDLE`, `DONE` and `FAULT` each read returns the value it names. In `RUN` of all host actions only `reset` has
an effect: `start` changes nothing (R218, log 8), and that the others, reads among them, are refused by name is the
model's choice (log 6). -/
def Obligations.HostActionsHaveTheirEffects : Prop :=
  (∀ s : State, s.state = .idle ∨ s.state = .done →
    (∀ words : List Cmd, words.length ≤ 65535 → hostAct (.loadProg words) s = .next { s with prog := words }) ∧
    (∀ (r : Reg) (v : Word), ∃ t, hostAct (.writeReg r v) s = .next t ∧ t.reg r = v ∧
      (∀ q : Reg, q ≠ r → t.reg q = s.reg q) ∧ SameBuf s t ∧ SameControl s t) ∧
    (∀ (a : Nat) (b : Byte), a ≤ 262 → s.buf.wf = true → ∃ t, hostAct (.writeBuf a b) s = .next t ∧
      t.readByte a = b ∧ (∀ c : Nat, c ≠ a → t.readByte c = s.readByte c) ∧ SameRegs s t ∧ SameControl s t) ∧
    (∀ v : Nat, v ≤ 263 → hostAct (.writeCsr .blen v) s = .next { s with blen := BitVec.ofNat 9 v }) ∧
    (∀ v : Nat, v ≤ 32 → hostAct (.writeCsr .lcnt v) s = .next { s with lcnt := BitVec.ofNat 6 v })) ∧
  (∀ s : State, s.state ≠ .run →
    (∀ r : Reg, hostRead (.reg r) s = .ok (s.reg r)) ∧
    (∀ a : Nat, a ≤ 262 → hostRead (.buf a) s = .ok ((s.readByte a).setWidth 64)) ∧
    (∀ c : Csr, hostRead (.csr c) s = .ok (s.csr c)) ∧ hostRead .cp s = .ok (s.cp.setWidth 64)) ∧
  (∀ (a : HostAction) (s : State), s.state = .run → a ≠ .start →
    (∀ resetX resetBuf, a ≠ .reset resetX resetBuf) → hostAct a s = .refused .hostWrongState) ∧
  (∀ s : State, s.state = .run →
    hostAct .start s = .next s ∧ (∀ r : HostRead, hostRead r s = .error .hostWrongState) ∧
    (∀ (resetX : Vector Word 32) (resetBuf : Vector Byte 263),
      hostAct (.reset resetX resetBuf) s = .next (State.resetWith resetX (Memory.ofBytes resetBuf))))
end

