-- ==== Sys2Proof/Laws/Encoding.lean ====
section
/-! SUPPORT. The fields of encoded words, format by format, and the lookup of opcodes and register numbers. -/

namespace Sys2Proof

/-- The opcode map read back: every command's code is assigned to it (30_encoding.md R80). -/
@[simp] theorem Op.ofCode_code (o : Op) : Op.ofCode o.code = some o := by cases o <;> decide

/-- An assigned code is the code of the command it is assigned to. -/
theorem Op.code_of_ofCode {c : BitVec 6} {o : Op} (h : Op.ofCode c = some o) : o.code = c := by
  have := List.find?_some h
  simpa using this

/-- The register numbers read back (10_state.md R36). -/
@[simp] theorem Csr.ofNumber_number (c : Csr) : Csr.ofNumber c.number = some c := by cases c <;> decide

/-- A number in use is the number of the register it names. -/
theorem Csr.number_of_ofNumber {n : BitVec 5} {c : Csr} (h : Csr.ofNumber n = some c) : c.number = n := by
  have := List.find?_some h
  simpa using this

@[simp] theorem Reg.ofField_field (r : Reg) : Reg.ofField r.field = r := rfl

@[simp] theorem Reg.field_ofField (f : BitVec 5) : (Reg.ofField f).field = f := rfl

theorem opField_encodeZ (o : Op) : opField (encodeZ o) = o.code := by cases o <;> decide

theorem opField_encodeR2 (o : Op) (rd ra : Reg) : opField (encodeR2 o rd ra) = o.code := by
  apply BitVec.eq_of_getLsbD_eq
  intro k hk
  simp only [opField, encodeR2, BitVec.getLsbD_extractLsb', BitVec.getLsbD_append]
  interval_cases k <;> rfl

theorem opField_encodeR3 (o : Op) (rd ra rb : Reg) : opField (encodeR3 o rd ra rb) = o.code := by
  apply BitVec.eq_of_getLsbD_eq
  intro k hk
  simp only [opField, encodeR3, BitVec.getLsbD_extractLsb', BitVec.getLsbD_append]
  interval_cases k <;> rfl

theorem opField_encodeR4 (o : Op) (rd ra rb rc : Reg) : opField (encodeR4 o rd ra rb rc) = o.code := by
  apply BitVec.eq_of_getLsbD_eq
  intro k hk
  simp only [opField, encodeR4, BitVec.getLsbD_extractLsb', BitVec.getLsbD_append]
  interval_cases k <;> rfl

theorem opField_encodeI8 (o : Op) (rd : Reg) (imm8 : Byte) : opField (encodeI8 o rd imm8) = o.code := by
  apply BitVec.eq_of_getLsbD_eq
  intro k hk
  simp only [opField, encodeI8, BitVec.getLsbD_extractLsb', BitVec.getLsbD_append]
  interval_cases k <;> rfl

theorem opField_encodeCRead (o : Op) (rd : Reg) (c : Csr) : opField (encodeCRead o rd c) = o.code := by
  apply BitVec.eq_of_getLsbD_eq
  intro k hk
  simp only [opField, encodeCRead, BitVec.getLsbD_extractLsb', BitVec.getLsbD_append]
  interval_cases k <;> rfl

theorem opField_encodeCWrite (o : Op) (c : Csr) (imm9 : BitVec 9) :
    opField (encodeCWrite o c imm9) = o.code := by
  apply BitVec.eq_of_getLsbD_eq
  intro k hk
  simp only [opField, encodeCWrite, BitVec.getLsbD_extractLsb', BitVec.getLsbD_append]
  interval_cases k <;> rfl

theorem reserved_encodeZ (o : Op) : encodeZ o &&& Format.z.reserved = 0#32 := by cases o <;> decide

theorem reserved_encodeR2 (o : Op) (rd ra : Reg) : encodeR2 o rd ra &&& Format.r2.reserved = 0#32 := by
  apply BitVec.eq_of_getLsbD_eq
  intro k hk
  simp only [encodeR2, Format.reserved, BitVec.getLsbD_and, BitVec.getLsbD_append]
  interval_cases k <;> simp

theorem reserved_encodeR3 (o : Op) (rd ra rb : Reg) :
    encodeR3 o rd ra rb &&& Format.r3.reserved = 0#32 := by
  apply BitVec.eq_of_getLsbD_eq
  intro k hk
  simp only [encodeR3, Format.reserved, BitVec.getLsbD_and, BitVec.getLsbD_append]
  interval_cases k <;> simp

theorem reserved_encodeR4 (o : Op) (rd ra rb rc : Reg) :
    encodeR4 o rd ra rb rc &&& Format.r4.reserved = 0#32 := by
  apply BitVec.eq_of_getLsbD_eq
  intro k hk
  simp only [encodeR4, Format.reserved, BitVec.getLsbD_and, BitVec.getLsbD_append]
  interval_cases k <;> simp

theorem reserved_encodeI8 (o : Op) (rd : Reg) (imm8 : Byte) :
    encodeI8 o rd imm8 &&& Format.i8.reserved = 0#32 := by
  apply BitVec.eq_of_getLsbD_eq
  intro k hk
  simp only [encodeI8, Format.reserved, BitVec.getLsbD_and, BitVec.getLsbD_append]
  interval_cases k <;> simp

theorem reserved_encodeCRead (o : Op) (rd : Reg) (c : Csr) :
    encodeCRead o rd c &&& Format.cRead.reserved = 0#32 := by
  apply BitVec.eq_of_getLsbD_eq
  intro k hk
  simp only [encodeCRead, Format.reserved, BitVec.getLsbD_and, BitVec.getLsbD_append]
  interval_cases k <;> simp

theorem reserved_encodeCWrite (o : Op) (c : Csr) (imm9 : BitVec 9) :
    encodeCWrite o c imm9 &&& Format.cWrite.reserved = 0#32 := by
  apply BitVec.eq_of_getLsbD_eq
  intro k hk
  simp only [encodeCWrite, Format.reserved, BitVec.getLsbD_and, BitVec.getLsbD_append]
  interval_cases k <;> simp

end Sys2Proof
end

