-- ==== Sys2Proof/Laws/Lanes.lean ====
section
/-! SUPPORT. The lanes of a word: a word is its lanes, and what each lane of a lane-wise result is. -/

namespace Sys2Proof.Machine

/-- Bit `k` of lane `i` is bit `8i + k` of the word (00_scope.md R10). -/
theorem getLsbD_lane (w : Word) (i : Fin 8) {k : Nat} (hk : k < 8) :
    (lane w i).getLsbD k = w.getLsbD (8 * i.val + k) := by
  simp [lane, hk]

/-- Lane `i` of `mkword f` is `f i`. -/
@[simp] theorem lane_mkword (f : Fin 8 → Byte) (i : Fin 8) : lane (mkword f) i = f i := by
  apply BitVec.eq_of_getLsbD_eq
  intro k hk
  unfold lane mkword
  fin_cases i <;>
    simp only [BitVec.getLsbD_extractLsb', BitVec.getLsbD_append, hk, decide_true, Bool.true_and] <;>
    interval_cases k <;> rfl

/-- A word is made of its lanes. -/
@[simp] theorem mkword_lane (w : Word) : (mkword fun i => lane w i) = w := by
  apply BitVec.eq_of_getLsbD_eq
  intro k hk
  unfold lane mkword
  simp only [BitVec.getLsbD_append, BitVec.getLsbD_extractLsb']
  interval_cases k <;> simp

/-- Words with equal lanes are equal. -/
theorem word_ext {v w : Word} (h : ∀ i, lane v i = lane w i) : v = w := by
  rw [← mkword_lane v, ← mkword_lane w]
  exact congrArg mkword (funext h)

@[simp] theorem lane_map1 (f : Byte → Byte) (a : Word) (i : Fin 8) : lane (map1 f a) i = f (lane a i) := by
  simp [map1]

@[simp] theorem lane_map2 (f : Byte → Byte → Byte) (a b : Word) (i : Fin 8) :
    lane (map2 f a b) i = f (lane a i) (lane b i) := by
  simp [map2]

@[simp] theorem lane_and (a b : Word) (i : Fin 8) : lane (a &&& b) i = lane a i &&& lane b i := by
  simp [lane, BitVec.extractLsb'_and]

@[simp] theorem lane_or (a b : Word) (i : Fin 8) : lane (a ||| b) i = lane a i ||| lane b i := by
  simp [lane, BitVec.extractLsb'_or]

@[simp] theorem lane_xor (a b : Word) (i : Fin 8) : lane (a ^^^ b) i = lane a i ^^^ lane b i := by
  simp [lane, BitVec.extractLsb'_xor]

@[simp] theorem lane_not (a : Word) (i : Fin 8) : lane (~~~a) i = ~~~lane a i := by
  apply BitVec.eq_of_getLsbD_eq
  intro k hk
  have h1 : 8 * i.val + k < 64 := by omega
  rw [getLsbD_lane _ _ hk, BitVec.getLsbD_not, BitVec.getLsbD_not, getLsbD_lane _ _ hk]
  simp [hk, h1]

@[simp] theorem lane_highBits (i : Fin 8) : lane Config.highBits i = 0x80#8 := by fin_cases i <;> decide

@[simp] theorem lane_lowBits (i : Fin 8) : lane Config.lowBits i = 0x01#8 := by fin_cases i <;> decide

@[simp] theorem lane_low7 (i : Fin 8) : lane Config.low7 i = 0x7F#8 := by fin_cases i <;> decide

@[simp] theorem lane_zero (i : Fin 8) : lane 0#64 i = 0#8 := by fin_cases i <;> decide

@[simp] theorem lane_fBroadcast (b : Byte) (i : Fin 8) : lane (fBroadcast b) i = b := by simp [fBroadcast]

@[simp] theorem lane_bytesToLane (bs : Vector Byte 8) (i : Fin 8) : lane (bytesToLane bs) i = bs[i.val] := by
  simp [bytesToLane]

@[simp] theorem getElem_laneToBytes (w : Word) (i : Nat) (h : i < 8) : (laneToBytes w)[i] = lane w ⟨i, h⟩ := by
  simp [laneToBytes]

/-! ### The lane of each function's result, one lemma per function -/

@[simp] theorem lane_fEqual (v c : Word) (i : Fin 8) :
    lane (fEqual v c) i = flagByte (lane v i == lane c i) := by simp [fEqual]

@[simp] theorem lane_fLess (v c : Word) (i : Fin 8) :
    lane (fLess v c) i = flagByte (decide ((lane v i).toNat < (lane c i).toNat)) := by simp [fLess]

@[simp] theorem lane_fGreater (v c : Word) (i : Fin 8) :
    lane (fGreater v c) i = flagByte (decide ((lane c i).toNat < (lane v i).toNat)) := by simp [fGreater]

@[simp] theorem lane_fAddWrap (a b : Word) (i : Fin 8) :
    lane (fAddWrap a b) i = laneAddWrap (lane a i) (lane b i) := by simp [fAddWrap]

@[simp] theorem lane_fSubWrap (a b : Word) (i : Fin 8) :
    lane (fSubWrap a b) i = laneSubWrap (lane a i) (lane b i) := by simp [fSubWrap]

@[simp] theorem lane_fAddSat (a b : Word) (i : Fin 8) :
    lane (fAddSat a b) i = laneAddSat (lane a i) (lane b i) := by simp [fAddSat]

@[simp] theorem lane_fSubSat (a b : Word) (i : Fin 8) :
    lane (fSubSat a b) i = laneSubSat (lane a i) (lane b i) := by simp [fSubSat]

@[simp] theorem lane_fAbsDiff (a b : Word) (i : Fin 8) :
    lane (fAbsDiff a b) i = laneAbsDiff (lane a i) (lane b i) := by simp [fAbsDiff]

@[simp] theorem lane_fMin (a b : Word) (i : Fin 8) :
    lane (fMin a b) i = laneMin (lane a i) (lane b i) := by simp [fMin]

@[simp] theorem lane_fMax (a b : Word) (i : Fin 8) :
    lane (fMax a b) i = laneMax (lane a i) (lane b i) := by simp [fMax]

@[simp] theorem lane_fAverage (a b : Word) (i : Fin 8) :
    lane (fAverage a b) i = laneAverage (lane a i) (lane b i) := by simp [fAverage]

@[simp] theorem lane_fSwapNibbles (w : Word) (i : Fin 8) :
    lane (fSwapNibbles w) i = laneSwapNibbles (lane w i) := by simp [fSwapNibbles]

@[simp] theorem lane_fReverseBits (w : Word) (i : Fin 8) :
    lane (fReverseBits w) i = laneReverseBits (lane w i) := by simp [fReverseBits]

@[simp] theorem lane_fPopcount (w : Word) (i : Fin 8) :
    lane (fPopcount w) i = lanePopcount (lane w i) := by simp [fPopcount]

@[simp] theorem lane_fSelect (a b f : Word) (i : Fin 8) :
    lane (fSelect a b f) i = if lowFlag f i then lane a i else lane b i := by simp [fSelect]

end Sys2Proof.Machine
end

