-- ==== Sys2Proof/Laws/Memory.lean ====
section
/-! SUPPORT. The laws of the byte buffer: read after write, every operation keeps the canonical form, and equal
contents are equal lists. -/

namespace Sys2Proof.Machine

/-- An address below a canonical list's first address reads as unlisted. -/
theorem Memory.read_of_lt {lo a : Nat} {m : Memory} (h : Memory.wfFrom lo m = true) (ha : a < lo) :
    Memory.read m a = Config.resetByte := by
  induction m generalizing lo with
  | nil => rfl
  | cons c rest ih =>
    simp only [Memory.wfFrom, Bool.and_eq_true, decide_eq_true_eq] at h
    obtain ⟨⟨⟨h1, -⟩, -⟩, h4⟩ := h
    have hne : c.1 ≠ a := by omega
    simp only [Memory.read, hne, if_false]
    exact ih h4 (by omega)

/-- A canonical list is canonical from any lower address. -/
theorem Memory.wfFrom_mono {lo lo' : Nat} {m : Memory} (h : Memory.wfFrom lo m = true) (hl : lo' ≤ lo) :
    Memory.wfFrom lo' m = true := by
  cases m with
  | nil => rfl
  | cons c rest =>
    simp only [Memory.wfFrom, Bool.and_eq_true, decide_eq_true_eq] at h ⊢
    exact ⟨⟨⟨by omega, h.1.1.2⟩, h.1.2⟩, h.2⟩

/-- Read after write on a canonical list. -/
theorem Memory.read_write_from {lo : Nat} {m : Memory} (h : Memory.wfFrom lo m = true) (a b : Nat) (v : Byte) :
    Memory.read (Memory.write m a v) b = if b = a then v else Memory.read m b := by
  induction m generalizing lo with
  | nil =>
    by_cases hb : b = a
    · subst hb
      by_cases hv : v = Config.resetByte <;> simp [Memory.write, Memory.read, hv]
    · have hab : a ≠ b := fun e => hb e.symm
      by_cases hv : v = Config.resetByte <;> simp [Memory.write, Memory.read, hv, hb, hab]
  | cons c rest ih =>
    have h' := h
    simp only [Memory.wfFrom, Bool.and_eq_true, decide_eq_true_eq] at h
    obtain ⟨⟨⟨h1, h2⟩, h3⟩, h4⟩ := h
    simp only [Memory.write]
    split
    · rename_i hlt
      have hbelow : ∀ x, x < c.1 → Memory.read (c :: rest) x = Config.resetByte := fun x hx => by
        have : c.1 ≠ x := by omega
        simp only [Memory.read, this, if_false]
        exact Memory.read_of_lt h4 (by omega)
      by_cases hb : b = a
      · subst hb
        by_cases hv : v = Config.resetByte
        · simp [hv, hbelow b hlt]
        · simp [hv, Memory.read]
      · by_cases hv : v = Config.resetByte
        · simp [hv, hb]
        · have : a ≠ b := fun e => hb e.symm
          simp [hv, hb, Memory.read, this]
    · split
      · rename_i hnlt heq
        by_cases hb : b = a
        · subst hb
          by_cases hv : v = Config.resetByte
          · simp only [hv, if_true]
            exact Memory.read_of_lt h4 (by omega)
          · simp [hv, Memory.read]
        · have hcb : c.1 ≠ b := by omega
          have hab : a ≠ b := fun e => hb e.symm
          by_cases hv : v = Config.resetByte <;> simp [hv, hb, Memory.read, hcb, hab]
      · rename_i hnlt hne
        simp only [Memory.read]
        by_cases hcb : c.1 = b
        · have : b ≠ a := by omega
          simp [hcb, this]
        · simp only [hcb, if_false]
          exact ih h4

/-- A write below `BUF_CAP` keeps the canonical form. -/
theorem Memory.wfFrom_write {lo : Nat} {m : Memory} (h : Memory.wfFrom lo m = true) {a : Nat} (v : Byte)
    (hlo : lo ≤ a) (ha : a < Config.bufCap) : Memory.wfFrom lo (Memory.write m a v) = true := by
  induction m generalizing lo with
  | nil =>
    by_cases hv : v = Config.resetByte
    · simp [Memory.write, hv, Memory.wfFrom]
    · simp [Memory.write, hv, Memory.wfFrom, hlo, ha]
  | cons c rest ih =>
    have h' := h
    simp only [Memory.wfFrom, Bool.and_eq_true, decide_eq_true_eq] at h
    obtain ⟨⟨⟨h1, h2⟩, h3⟩, h4⟩ := h
    simp only [Memory.write]
    split
    · rename_i hlt
      by_cases hv : v = Config.resetByte
      · simpa [hv] using h'
      · have : a + 1 ≤ c.1 := by omega
        simp [hv, Memory.wfFrom, hlo, ha, this, h2, h3, h4]
    · split
      · rename_i hnlt heq
        by_cases hv : v = Config.resetByte
        · simp only [hv, if_true]
          exact Memory.wfFrom_mono h4 (by omega)
        · subst heq
          simp [hv, Memory.wfFrom, hlo, ha, h4]
      · rename_i hnlt hne
        have := ih h4 (by omega)
        simp [Memory.wfFrom, h1, h2, h3, this]

/-- Read after write. -/
theorem Memory.read_write {m : Memory} (h : m.wf = true) (a b : Nat) (v : Byte) :
    (m.write a v).read b = if b = a then v else m.read b := Memory.read_write_from h a b v

/-- A write below `BUF_CAP` keeps the canonical form. -/
theorem Memory.wf_write {m : Memory} (h : m.wf = true) {a : Nat} (v : Byte) (ha : a < Config.bufCap) :
    (m.write a v).wf = true := Memory.wfFrom_write h v (Nat.zero_le a) ha

/-- A block write within `BUF` keeps the canonical form. -/
theorem Memory.wf_writeBytes {m : Memory} (h : m.wf = true) {a : Nat} (v : List Byte)
    (ha : a + v.length ≤ Config.bufCap) : (m.writeBytes a v).wf = true := by
  induction v generalizing m a with
  | nil => exact h
  | cons b rest ih =>
    simp only [List.length_cons] at ha
    exact ih (Memory.wf_write h b (by omega)) (by omega)

/-- Read after a block write within `BUF`: byte `k` of the block at `a + k`, every other byte as before. -/
theorem Memory.read_writeBytes {m : Memory} (h : m.wf = true) {a : Nat} (v : List Byte)
    (ha : a + v.length ≤ Config.bufCap) (b : Nat) :
    (m.writeBytes a v).read b = if a ≤ b ∧ b < a + v.length then v.getD (b - a) 0#8 else m.read b := by
  induction v generalizing m a with
  | nil =>
    have : ¬(a ≤ b ∧ b < a + ([] : List Byte).length) := by simp
    rw [if_neg this]
    rfl
  | cons c rest ih =>
    simp only [List.length_cons] at ha
    have hw := Memory.wf_write h c (a := a) (by omega)
    simp only [Memory.writeBytes, List.length_cons]
    rw [ih hw (by omega), Memory.read_write h]
    by_cases hb : b = a
    · subst hb
      simp
    · by_cases hr : a + 1 ≤ b ∧ b < a + 1 + rest.length
      · have h2 : a ≤ b ∧ b < a + (rest.length + 1) := by omega
        have h3 : b - a = (b - (a + 1)) + 1 := by omega
        rw [if_pos hr, if_pos h2, h3, List.getD_cons_succ]
      · have h2 : ¬(a ≤ b ∧ b < a + (rest.length + 1)) := by omega
        rw [if_neg hr, if_neg h2, if_neg hb]

/-- The buffer that holds given bytes is canonical. -/
theorem Memory.wf_ofBytes (v : Vector Byte 263) : (Memory.ofBytes v).wf = true :=
  Memory.wf_writeBytes rfl _ (by simp [Config.bufCap])

/-- The buffer that holds given bytes reads as them. -/
theorem Memory.read_ofBytes (v : Vector Byte 263) (a : Fin 263) : (Memory.ofBytes v).read a.val = v[a.val] := by
  have hcap : 0 + v.toList.length ≤ Config.bufCap := by simp [Config.bufCap]
  rw [Memory.ofBytes, Memory.read_writeBytes rfl _ hcap]
  simp [List.getD_eq_getElem?_getD]

/-- Canonical lists with equal contents are equal. -/
theorem Memory.ext_from {lo : Nat} {m n : Memory} (hm : Memory.wfFrom lo m = true)
    (hn : Memory.wfFrom lo n = true) (h : ∀ a, Memory.read m a = Memory.read n a) : m = n := by
  induction m generalizing lo n with
  | nil =>
    cases n with
    | nil => rfl
    | cons d ds =>
      simp only [Memory.wfFrom, Bool.and_eq_true, decide_eq_true_eq] at hn
      have := h d.1
      simp only [Memory.read, if_true] at this
      exact absurd this.symm hn.1.2
  | cons c cs ih =>
    have hm' := hm
    simp only [Memory.wfFrom, Bool.and_eq_true, decide_eq_true_eq] at hm
    cases n with
    | nil =>
      have := h c.1
      simp only [Memory.read, if_true] at this
      exact absurd this hm.1.2
    | cons d ds =>
      have hn' := hn
      simp only [Memory.wfFrom, Bool.and_eq_true, decide_eq_true_eq] at hn
      have key : c.1 = d.1 := by
        rcases Nat.lt_trichotomy c.1 d.1 with hlt | heq | hgt
        · have h1 := h c.1
          have hne : d.1 ≠ c.1 := by omega
          simp only [Memory.read, if_true, hne, if_false] at h1
          rw [Memory.read_of_lt hn.2 (by omega)] at h1
          exact absurd h1 hm.1.2
        · exact heq
        · have h1 := h d.1
          have hne : c.1 ≠ d.1 := by omega
          simp only [Memory.read, if_true, hne, if_false] at h1
          rw [Memory.read_of_lt hm.2 (by omega)] at h1
          exact absurd h1.symm hn.1.2
      have hv : c.2 = d.2 := by
        have h1 := h c.1
        simpa only [Memory.read, if_true, key] using h1
      have hcd : c = d := Prod.ext key hv
      subst hcd
      have htail : ∀ a, Memory.read cs a = Memory.read ds a := fun a => by
        by_cases ha : c.1 = a
        · rw [Memory.read_of_lt hm.2 (by omega), Memory.read_of_lt hn.2 (by omega)]
        · have h1 := h a
          simpa only [Memory.read, ha, if_false] using h1
      rw [ih hm.2 hn.2 htail]

/-- Canonical buffers with equal contents are equal data. -/
theorem Memory.ext_of_read {m n : Memory} (hm : m.wf = true) (hn : n.wf = true)
    (h : ∀ a, m.read a = n.read a) : m = n := Memory.ext_from hm hn h

end Sys2Proof.Machine
end

