-- ==== Sys2Proof/Laws/State.lean ====
section
/-! SUPPORT. One lemma per field per update of the state, true by definition, and the register file's read after
write. -/

namespace Sys2Proof.Machine

/-! ### State.setReg -/

@[simp] theorem State.setReg_x (s : State) (r : Reg) (v : Word) : (s.setReg r v).x = s.x.set r.val v := rfl
@[simp] theorem State.setReg_buf (s : State) (r : Reg) (v : Word) : (s.setReg r v).buf = s.buf := rfl
@[simp] theorem State.setReg_blen (s : State) (r : Reg) (v : Word) : (s.setReg r v).blen = s.blen := rfl
@[simp] theorem State.setReg_lcnt (s : State) (r : Reg) (v : Word) : (s.setReg r v).lcnt = s.lcnt := rfl
@[simp] theorem State.setReg_consumed (s : State) (r : Reg) (v : Word) : (s.setReg r v).consumed = s.consumed := rfl
@[simp] theorem State.setReg_state (s : State) (r : Reg) (v : Word) : (s.setReg r v).state = s.state := rfl
@[simp] theorem State.setReg_cause (s : State) (r : Reg) (v : Word) : (s.setReg r v).cause = s.cause := rfl
@[simp] theorem State.setReg_fcp (s : State) (r : Reg) (v : Word) : (s.setReg r v).fcp = s.fcp := rfl
@[simp] theorem State.setReg_fcmd (s : State) (r : Reg) (v : Word) : (s.setReg r v).fcmd = s.fcmd := rfl
@[simp] theorem State.setReg_cp (s : State) (r : Reg) (v : Word) : (s.setReg r v).cp = s.cp := rfl
@[simp] theorem State.setReg_prog (s : State) (r : Reg) (v : Word) : (s.setReg r v).prog = s.prog := rfl

/-! ### State.storeGroup -/

@[simp] theorem State.storeGroup_x (s : State) (a : Nat) (w : Word) : (s.storeGroup a w).x = s.x := rfl
@[simp] theorem State.storeGroup_buf (s : State) (a : Nat) (w : Word) : (s.storeGroup a w).buf = s.buf.writeBytes a (laneToBytes w).toList := rfl
@[simp] theorem State.storeGroup_blen (s : State) (a : Nat) (w : Word) : (s.storeGroup a w).blen = s.blen := rfl
@[simp] theorem State.storeGroup_lcnt (s : State) (a : Nat) (w : Word) : (s.storeGroup a w).lcnt = s.lcnt := rfl
@[simp] theorem State.storeGroup_consumed (s : State) (a : Nat) (w : Word) : (s.storeGroup a w).consumed = s.consumed := rfl
@[simp] theorem State.storeGroup_state (s : State) (a : Nat) (w : Word) : (s.storeGroup a w).state = s.state := rfl
@[simp] theorem State.storeGroup_cause (s : State) (a : Nat) (w : Word) : (s.storeGroup a w).cause = s.cause := rfl
@[simp] theorem State.storeGroup_fcp (s : State) (a : Nat) (w : Word) : (s.storeGroup a w).fcp = s.fcp := rfl
@[simp] theorem State.storeGroup_fcmd (s : State) (a : Nat) (w : Word) : (s.storeGroup a w).fcmd = s.fcmd := rfl
@[simp] theorem State.storeGroup_cp (s : State) (a : Nat) (w : Word) : (s.storeGroup a w).cp = s.cp := rfl
@[simp] theorem State.storeGroup_prog (s : State) (a : Nat) (w : Word) : (s.storeGroup a w).prog = s.prog := rfl

/-! ### State.advance -/

@[simp] theorem State.advance_x (s : State) : (s.advance).x = s.x := rfl
@[simp] theorem State.advance_buf (s : State) : (s.advance).buf = s.buf := rfl
@[simp] theorem State.advance_blen (s : State) : (s.advance).blen = s.blen := rfl
@[simp] theorem State.advance_lcnt (s : State) : (s.advance).lcnt = s.lcnt := rfl
@[simp] theorem State.advance_consumed (s : State) : (s.advance).consumed = s.consumed := rfl
@[simp] theorem State.advance_state (s : State) : (s.advance).state = s.state := rfl
@[simp] theorem State.advance_cause (s : State) : (s.advance).cause = s.cause := rfl
@[simp] theorem State.advance_fcp (s : State) : (s.advance).fcp = s.fcp := rfl
@[simp] theorem State.advance_fcmd (s : State) : (s.advance).fcmd = s.fcmd := rfl
@[simp] theorem State.advance_cp (s : State) : (s.advance).cp = s.cp + 1#16 := rfl
@[simp] theorem State.advance_prog (s : State) : (s.advance).prog = s.prog := rfl

/-! ### raiseFault -/

@[simp] theorem raiseFault_x (c : Cause) (w : Cmd) (s : State) : (raiseFault c w s).x = s.x := rfl
@[simp] theorem raiseFault_buf (c : Cause) (w : Cmd) (s : State) : (raiseFault c w s).buf = s.buf := rfl
@[simp] theorem raiseFault_blen (c : Cause) (w : Cmd) (s : State) : (raiseFault c w s).blen = s.blen := rfl
@[simp] theorem raiseFault_lcnt (c : Cause) (w : Cmd) (s : State) : (raiseFault c w s).lcnt = s.lcnt := rfl
@[simp] theorem raiseFault_consumed (c : Cause) (w : Cmd) (s : State) : (raiseFault c w s).consumed = s.consumed := rfl
@[simp] theorem raiseFault_state (c : Cause) (w : Cmd) (s : State) : (raiseFault c w s).state = .fault := rfl
@[simp] theorem raiseFault_cause (c : Cause) (w : Cmd) (s : State) : (raiseFault c w s).cause = c := rfl
@[simp] theorem raiseFault_fcp (c : Cause) (w : Cmd) (s : State) : (raiseFault c w s).fcp = s.cp := rfl
@[simp] theorem raiseFault_fcmd (c : Cause) (w : Cmd) (s : State) : (raiseFault c w s).fcmd = w := rfl
@[simp] theorem raiseFault_cp (c : Cause) (w : Cmd) (s : State) : (raiseFault c w s).cp = s.cp := rfl
@[simp] theorem raiseFault_prog (c : Cause) (w : Cmd) (s : State) : (raiseFault c w s).prog = s.prog := rfl

/-! ### State.resetWith -/

@[simp] theorem State.resetWith_x (v : Vector Word 32) (m : Memory) : (State.resetWith v m).x = v := rfl
@[simp] theorem State.resetWith_buf (v : Vector Word 32) (m : Memory) : (State.resetWith v m).buf = m := rfl
@[simp] theorem State.resetWith_blen (v : Vector Word 32) (m : Memory) : (State.resetWith v m).blen = 0#9 := rfl
@[simp] theorem State.resetWith_lcnt (v : Vector Word 32) (m : Memory) : (State.resetWith v m).lcnt = 0#6 := rfl
@[simp] theorem State.resetWith_consumed (v : Vector Word 32) (m : Memory) : (State.resetWith v m).consumed = 0#9 := rfl
@[simp] theorem State.resetWith_state (v : Vector Word 32) (m : Memory) : (State.resetWith v m).state = .idle := rfl
@[simp] theorem State.resetWith_cause (v : Vector Word 32) (m : Memory) : (State.resetWith v m).cause = .none := rfl
@[simp] theorem State.resetWith_fcp (v : Vector Word 32) (m : Memory) : (State.resetWith v m).fcp = 0#16 := rfl
@[simp] theorem State.resetWith_fcmd (v : Vector Word 32) (m : Memory) : (State.resetWith v m).fcmd = 0#32 := rfl
@[simp] theorem State.resetWith_cp (v : Vector Word 32) (m : Memory) : (State.resetWith v m).cp = 0#16 := rfl
@[simp] theorem State.resetWith_prog (v : Vector Word 32) (m : Memory) : (State.resetWith v m).prog = [] := rfl

/-! ### Registers, buffer bytes and control registers after an update -/

@[simp] theorem State.reg_setReg_same (s : State) (r : Reg) (v : Word) : (s.setReg r v).reg r = v := by
  simp [State.reg]

theorem State.reg_setReg_of_ne (s : State) {r q : Reg} (v : Word) (h : q ≠ r) :
    (s.setReg r v).reg q = s.reg q := by
  have : r.val ≠ q.val := fun e => h (Fin.ext e.symm)
  simp [State.reg, this]

theorem State.reg_setReg (s : State) (r q : Reg) (v : Word) :
    (s.setReg r v).reg q = if q = r then v else s.reg q := by
  by_cases h : q = r
  · subst h
    simp
  · rw [State.reg_setReg_of_ne s v h, if_neg h]

@[simp] theorem State.reg_advance (s : State) (r : Reg) : s.advance.reg r = s.reg r := rfl

@[simp] theorem State.reg_storeGroup (s : State) (a : Nat) (w : Word) (r : Reg) :
    (s.storeGroup a w).reg r = s.reg r := rfl

@[simp] theorem State.reg_raiseFault (c : Cause) (w : Cmd) (s : State) (r : Reg) :
    (raiseFault c w s).reg r = s.reg r := rfl

@[simp] theorem State.readByte_advance (s : State) (a : Nat) : s.advance.readByte a = s.readByte a := rfl

@[simp] theorem State.readByte_setReg (s : State) (r : Reg) (v : Word) (a : Nat) :
    (s.setReg r v).readByte a = s.readByte a := rfl

@[simp] theorem State.readByte_raiseFault (c : Cause) (w : Cmd) (s : State) (a : Nat) :
    (raiseFault c w s).readByte a = s.readByte a := rfl

@[simp] theorem State.csr_advance (s : State) (c : Csr) : s.advance.csr c = s.csr c := by cases c <;> rfl

@[simp] theorem State.csr_setReg (s : State) (r : Reg) (v : Word) (c : Csr) :
    (s.setReg r v).csr c = s.csr c := by cases c <;> rfl

end Sys2Proof.Machine
end

