-- ==== Sys2Proof/Laws/Ops.lean ====
section
/-! SUPPORT. What each shared operation can do, said once: the proofs cite these instead of unfolding it. -/

namespace Sys2Proof.Machine

/-- `retire` always answers, with `CP` advanced. -/
theorem retire_eq_next {s t : State} : retire s = .next t ↔ t = s.advance := by
  simp [retire, eq_comm]

/-- `trap` always answers, with the fault entered. -/
theorem trap_eq_next {c : Cause} {w : Cmd} {s t : State} : trap c w s = .next t ↔ t = raiseFault c w s := by
  simp [trap, eq_comm]

/-- A register write followed by the advance changes that register and `CP` only. -/
theorem writesOnlyReg_setReg (s : State) (rd : Reg) (v : Word) :
    WritesOnlyReg rd v s (s.setReg rd v).advance :=
  ⟨by simp, fun r h => by simp [State.reg_setReg_of_ne s v h], fun a => by simp, ⟨rfl, rfl, rfl⟩,
    rfl, ⟨rfl, rfl, rfl⟩, rfl, rfl⟩

/-- A meaning that is one register write completes with it. -/
theorem completesWith_of_setReg {i : Instr} {rd : Reg} {v : Word} {s : State}
    (h : exec i s = retire (s.setReg rd v)) : CompletesWith i rd v s :=
  ⟨_, h, writesOnlyReg_setReg s rd v⟩

/-- Byte `j` of the group at `addr`. -/
@[simp] theorem Memory.getElem_readGroup (m : Memory) (addr j : Nat) (h : j < 8) :
    (m.readGroup addr)[j] = m.read (addr + j) := by
  simp [Memory.readGroup]

/-- A register after the loop of `PACK`. -/
theorem getElem_packedRegs (s : State) (n i : Nat) (h : i < 32) :
    (packedRegs s n)[i] = if i < n then bytesToLane (s.buf.readGroup (8 * i)) else s.x[i] := by
  simp [packedRegs]

/-- A lane of a register after the loop of `PACK` is the byte of `BUF` it was packed from. -/
theorem lane_packedRegs (s : State) (n i : Nat) (h : i < 32) (hn : i < n) (j : Fin 8) :
    lane (packedRegs s n)[i] j = s.readByte (8 * i + j.val) := by
  rw [getElem_packedRegs s n i h, if_pos hn, lane_bytesToLane, Memory.getElem_readGroup]
  rfl

/-- A byte of `BUF` after an 8-byte group is stored within it. -/
theorem readByte_storeGroup {s : State} (hwf : s.buf.wf = true) {addr : Nat} (ha : addr + 8 ≤ Config.bufCap)
    (w : Word) (b : Nat) :
    (s.storeGroup addr w).readByte b
      = if h : addr ≤ b ∧ b < addr + 8 then lane w ⟨b - addr, by omega⟩ else s.readByte b := by
  have hlen : addr + (laneToBytes w).toList.length ≤ Config.bufCap := by simpa using ha
  have := Memory.read_writeBytes hwf (laneToBytes w).toList hlen b
  simp only [State.readByte, State.storeGroup_buf, this, Vector.length_toList]
  by_cases h : addr ≤ b ∧ b < addr + 8
  · rw [if_pos h, dif_pos h]
    have hk : b - addr < 8 := by omega
    simp [List.getD_eq_getElem?_getD, hk]
  · rw [if_neg h, dif_neg h]

/-- A group stored within `BUF` keeps the canonical form. -/
theorem wf_storeGroup {s : State} (hwf : s.buf.wf = true) {addr : Nat} (ha : addr + 8 ≤ Config.bufCap)
    (w : Word) : (s.storeGroup addr w).buf.wf = true :=
  Memory.wf_writeBytes hwf _ (by simpa using ha)

/-- The group that an `imm8` names lies within `BUF` (20_memory.md R56). -/
theorem groupAddr_le (imm8 : Byte) : groupAddr imm8 + 8 ≤ Config.bufCap := by
  have := imm8.isLt
  simp only [groupAddr, Config.bufCap]
  omega

/-- `F_unpack` gives eight bytes a word. -/
theorem length_fUnpack (ws : List Word) : (fUnpack ws).length = 8 * ws.length := by
  induction ws with
  | nil => rfl
  | cons w rest ih =>
    simp only [fUnpack, List.flatMap_cons, List.length_append, List.length_cons, Vector.length_toList] at ih ⊢
    omega

/-- The words `UNPACK` reads. -/
theorem length_firstRegs (s : State) {n : Nat} (h : n ≤ 32) : (firstRegs s n).length = n := by
  simp [firstRegs, h]

/-- What a step that answers can have been: a fetch overrun, a rejected word, or the decoded command. -/
theorem step_cases {s t : State} (h : step s = .next t) :
    s.state = .run ∧
      ((fetch s = none ∧ t = raiseFault .fetchOverrun 0#32 s) ∨
        (∃ w c, fetch s = some w ∧ decode w = .error c ∧ t = raiseFault c w s) ∨
        ∃ w i, fetch s = some w ∧ decode w = .ok i ∧ exec i s = .next t) := by
  unfold step at h
  split at h
  · cases h
  · cases h
  · cases h
  · rename_i hrun
    refine ⟨hrun, ?_⟩
    split at h
    · rename_i hf
      exact .inl ⟨hf, trap_eq_next.1 h⟩
    · rename_i w hf
      split at h
      · rename_i c hd
        exact .inr (.inl ⟨w, c, hf, hd, trap_eq_next.1 h⟩)
      · rename_i i hd
        exact .inr (.inr ⟨w, i, hf, hd, h⟩)

end Sys2Proof.Machine
end

