-- ==== Sys2Proof/Laws/PerInstr.lean ====
section
/-! SUPPORT. Two facts of every command as syntax, one lemma per constructor: the word of a command carries its
opcode, and has every must-be-zero bit of its format clear (30_encoding.md R72, R77, R80). -/

namespace Sys2Proof.Laws

/-- The word of a command carries the command's opcode. -/
def EncodeOpcode.Statement (i : Instr) : Prop := opField (encode i) = i.op.code

/-- The word of a command has every must-be-zero bit of its format clear. -/
def EncodeReserved.Statement (i : Instr) : Prop := encode i &&& i.op.format.reserved = 0#32

theorem EncodeOpcode.nop : EncodeOpcode.Statement .nop :=
  opField_encodeZ .nop

theorem EncodeOpcode.endRun : EncodeOpcode.Statement .endRun :=
  opField_encodeZ .endRun

theorem EncodeOpcode.rdc (rd : Reg) (csr : Csr) : EncodeOpcode.Statement (.rdc rd csr) :=
  opField_encodeCRead .rdc rd csr

theorem EncodeOpcode.wrc (csr : Csr) (imm9 : BitVec 9) : EncodeOpcode.Statement (.wrc csr imm9) :=
  opField_encodeCWrite .wrc csr imm9

theorem EncodeOpcode.pack : EncodeOpcode.Statement .pack :=
  opField_encodeZ .pack

theorem EncodeOpcode.unpack : EncodeOpcode.Statement .unpack :=
  opField_encodeZ .unpack

theorem EncodeOpcode.bci (rd : Reg) (imm8 : Byte) : EncodeOpcode.Statement (.bci rd imm8) :=
  opField_encodeI8 .bci rd imm8

theorem EncodeOpcode.bcr (rd : Reg) (ra : Reg) : EncodeOpcode.Statement (.bcr rd ra) :=
  opField_encodeR2 .bcr rd ra

theorem EncodeOpcode.ldl (rd : Reg) (imm8 : Byte) : EncodeOpcode.Statement (.ldl rd imm8) :=
  opField_encodeI8 .ldl rd imm8

theorem EncodeOpcode.stl (rs : Reg) (imm8 : Byte) : EncodeOpcode.Statement (.stl rs imm8) :=
  opField_encodeI8 .stl rs imm8

theorem EncodeOpcode.eq (rd : Reg) (ra : Reg) (rb : Reg) : EncodeOpcode.Statement (.eq rd ra rb) :=
  opField_encodeR3 .eq rd ra rb

theorem EncodeOpcode.lt (rd : Reg) (ra : Reg) (rb : Reg) : EncodeOpcode.Statement (.lt rd ra rb) :=
  opField_encodeR3 .lt rd ra rb

theorem EncodeOpcode.gt (rd : Reg) (ra : Reg) (rb : Reg) : EncodeOpcode.Statement (.gt rd ra rb) :=
  opField_encodeR3 .gt rd ra rb

theorem EncodeOpcode.addw (rd : Reg) (ra : Reg) (rb : Reg) : EncodeOpcode.Statement (.addw rd ra rb) :=
  opField_encodeR3 .addw rd ra rb

theorem EncodeOpcode.subw (rd : Reg) (ra : Reg) (rb : Reg) : EncodeOpcode.Statement (.subw rd ra rb) :=
  opField_encodeR3 .subw rd ra rb

theorem EncodeOpcode.adds (rd : Reg) (ra : Reg) (rb : Reg) : EncodeOpcode.Statement (.adds rd ra rb) :=
  opField_encodeR3 .adds rd ra rb

theorem EncodeOpcode.subs (rd : Reg) (ra : Reg) (rb : Reg) : EncodeOpcode.Statement (.subs rd ra rb) :=
  opField_encodeR3 .subs rd ra rb

theorem EncodeOpcode.absd (rd : Reg) (ra : Reg) (rb : Reg) : EncodeOpcode.Statement (.absd rd ra rb) :=
  opField_encodeR3 .absd rd ra rb

theorem EncodeOpcode.min (rd : Reg) (ra : Reg) (rb : Reg) : EncodeOpcode.Statement (.min rd ra rb) :=
  opField_encodeR3 .min rd ra rb

theorem EncodeOpcode.max (rd : Reg) (ra : Reg) (rb : Reg) : EncodeOpcode.Statement (.max rd ra rb) :=
  opField_encodeR3 .max rd ra rb

theorem EncodeOpcode.avg (rd : Reg) (ra : Reg) (rb : Reg) : EncodeOpcode.Statement (.avg rd ra rb) :=
  opField_encodeR3 .avg rd ra rb

theorem EncodeOpcode.swapn (rd : Reg) (ra : Reg) : EncodeOpcode.Statement (.swapn rd ra) :=
  opField_encodeR2 .swapn rd ra

theorem EncodeOpcode.revb (rd : Reg) (ra : Reg) : EncodeOpcode.Statement (.revb rd ra) :=
  opField_encodeR2 .revb rd ra

theorem EncodeOpcode.popc (rd : Reg) (ra : Reg) : EncodeOpcode.Statement (.popc rd ra) :=
  opField_encodeR2 .popc rd ra

theorem EncodeOpcode.sel (rd : Reg) (ra : Reg) (rb : Reg) (rc : Reg) : EncodeOpcode.Statement (.sel rd ra rb rc) :=
  opField_encodeR4 .sel rd ra rb rc

theorem EncodeOpcode.gath (rd : Reg) (ra : Reg) : EncodeOpcode.Statement (.gath rd ra) :=
  opField_encodeR2 .gath rd ra

theorem EncodeOpcode.posb (rd : Reg) (ra : Reg) : EncodeOpcode.Statement (.posb rd ra) :=
  opField_encodeR2 .posb rd ra

theorem EncodeReserved.nop : EncodeReserved.Statement .nop :=
  reserved_encodeZ .nop

theorem EncodeReserved.endRun : EncodeReserved.Statement .endRun :=
  reserved_encodeZ .endRun

theorem EncodeReserved.rdc (rd : Reg) (csr : Csr) : EncodeReserved.Statement (.rdc rd csr) :=
  reserved_encodeCRead .rdc rd csr

theorem EncodeReserved.wrc (csr : Csr) (imm9 : BitVec 9) : EncodeReserved.Statement (.wrc csr imm9) :=
  reserved_encodeCWrite .wrc csr imm9

theorem EncodeReserved.pack : EncodeReserved.Statement .pack :=
  reserved_encodeZ .pack

theorem EncodeReserved.unpack : EncodeReserved.Statement .unpack :=
  reserved_encodeZ .unpack

theorem EncodeReserved.bci (rd : Reg) (imm8 : Byte) : EncodeReserved.Statement (.bci rd imm8) :=
  reserved_encodeI8 .bci rd imm8

theorem EncodeReserved.bcr (rd : Reg) (ra : Reg) : EncodeReserved.Statement (.bcr rd ra) :=
  reserved_encodeR2 .bcr rd ra

theorem EncodeReserved.ldl (rd : Reg) (imm8 : Byte) : EncodeReserved.Statement (.ldl rd imm8) :=
  reserved_encodeI8 .ldl rd imm8

theorem EncodeReserved.stl (rs : Reg) (imm8 : Byte) : EncodeReserved.Statement (.stl rs imm8) :=
  reserved_encodeI8 .stl rs imm8

theorem EncodeReserved.eq (rd : Reg) (ra : Reg) (rb : Reg) : EncodeReserved.Statement (.eq rd ra rb) :=
  reserved_encodeR3 .eq rd ra rb

theorem EncodeReserved.lt (rd : Reg) (ra : Reg) (rb : Reg) : EncodeReserved.Statement (.lt rd ra rb) :=
  reserved_encodeR3 .lt rd ra rb

theorem EncodeReserved.gt (rd : Reg) (ra : Reg) (rb : Reg) : EncodeReserved.Statement (.gt rd ra rb) :=
  reserved_encodeR3 .gt rd ra rb

theorem EncodeReserved.addw (rd : Reg) (ra : Reg) (rb : Reg) : EncodeReserved.Statement (.addw rd ra rb) :=
  reserved_encodeR3 .addw rd ra rb

theorem EncodeReserved.subw (rd : Reg) (ra : Reg) (rb : Reg) : EncodeReserved.Statement (.subw rd ra rb) :=
  reserved_encodeR3 .subw rd ra rb

theorem EncodeReserved.adds (rd : Reg) (ra : Reg) (rb : Reg) : EncodeReserved.Statement (.adds rd ra rb) :=
  reserved_encodeR3 .adds rd ra rb

theorem EncodeReserved.subs (rd : Reg) (ra : Reg) (rb : Reg) : EncodeReserved.Statement (.subs rd ra rb) :=
  reserved_encodeR3 .subs rd ra rb

theorem EncodeReserved.absd (rd : Reg) (ra : Reg) (rb : Reg) : EncodeReserved.Statement (.absd rd ra rb) :=
  reserved_encodeR3 .absd rd ra rb

theorem EncodeReserved.min (rd : Reg) (ra : Reg) (rb : Reg) : EncodeReserved.Statement (.min rd ra rb) :=
  reserved_encodeR3 .min rd ra rb

theorem EncodeReserved.max (rd : Reg) (ra : Reg) (rb : Reg) : EncodeReserved.Statement (.max rd ra rb) :=
  reserved_encodeR3 .max rd ra rb

theorem EncodeReserved.avg (rd : Reg) (ra : Reg) (rb : Reg) : EncodeReserved.Statement (.avg rd ra rb) :=
  reserved_encodeR3 .avg rd ra rb

theorem EncodeReserved.swapn (rd : Reg) (ra : Reg) : EncodeReserved.Statement (.swapn rd ra) :=
  reserved_encodeR2 .swapn rd ra

theorem EncodeReserved.revb (rd : Reg) (ra : Reg) : EncodeReserved.Statement (.revb rd ra) :=
  reserved_encodeR2 .revb rd ra

theorem EncodeReserved.popc (rd : Reg) (ra : Reg) : EncodeReserved.Statement (.popc rd ra) :=
  reserved_encodeR2 .popc rd ra

theorem EncodeReserved.sel (rd : Reg) (ra : Reg) (rb : Reg) (rc : Reg) : EncodeReserved.Statement (.sel rd ra rb rc) :=
  reserved_encodeR4 .sel rd ra rb rc

theorem EncodeReserved.gath (rd : Reg) (ra : Reg) : EncodeReserved.Statement (.gath rd ra) :=
  reserved_encodeR2 .gath rd ra

theorem EncodeReserved.posb (rd : Reg) (ra : Reg) : EncodeReserved.Statement (.posb rd ra) :=
  reserved_encodeR2 .posb rd ra

end Sys2Proof.Laws
end

