-- ==== Sys2Proof/Tests/Slice0.lean ====
section
/-! SUPPORT. Tests: what WellFormed refuses, the words of 95_test_vectors.md section 2.1 decoded, one step of every
command with the result its rule prints, and for every statement with hypotheses a case that meets them. -/

namespace Sys2Proof.Tests

open Sys2Proof Sys2Proof.Machine

/-! ### WellFormed refuses -/

/-- 46_system.md R179: `CONSUMED` is read-only. -/
theorem test_wellFormed_refuses_readonly : (Instr.wrc .consumed 5#9).wellFormed = false := by decide

/-- 46_system.md R179: `WRC BLEN, 264` is out of range, 263 is the largest legal write. -/
theorem test_wellFormed_refuses_blen : (Instr.wrc .blen 264#9).wellFormed = false
    ∧ (Instr.wrc .blen 263#9).wellFormed = true := by decide

/-- 46_system.md R179: `WRC LCNT, 33` is out of range, 32 is the largest legal write. -/
theorem test_wellFormed_refuses_lcnt : (Instr.wrc .lcnt 33#9).wellFormed = false
    ∧ (Instr.wrc .lcnt 32#9).wellFormed = true := by decide

/-- 10_state.md R39: a stream of 65536 words is too long. -/
theorem test_progWellFormed_refuses : progWellFormed (List.replicate 65536 0#32) = false := by
  unfold progWellFormed
  rw [List.length_replicate]
  decide

/-! ### Words of 95_test_vectors.md section 2.1 -/

theorem test_decode_nop : decode 0x04000000#32 = .ok .nop := by rfl

theorem test_decode_endRun : decode 0x08000000#32 = .ok .endRun := by rfl

theorem test_decode_rdc : decode 0x0FE60000#32 = .ok (.rdc 31 .fcmd) := by rfl

theorem test_decode_wrc_lcnt : decode 0x10010020#32 = .ok (.wrc .lcnt 32#9) := by rfl

theorem test_decode_wrc_blen : decode 0x10000107#32 = .ok (.wrc .blen 263#9) := by rfl

theorem test_decode_pack : decode 0x20000000#32 = .ok .pack := by rfl

theorem test_decode_unpack : decode 0x24000000#32 = .ok .unpack := by rfl

theorem test_decode_bci : decode 0x2BE000FF#32 = .ok (.bci 31 255#8) := by rfl

theorem test_decode_bcr : decode 0x2FFE0000#32 = .ok (.bcr 31 30) := by rfl

theorem test_decode_ldl : decode 0x33E000FF#32 = .ok (.ldl 31 255#8) := by rfl

theorem test_decode_stl : decode 0x37E000FF#32 = .ok (.stl 31 255#8) := by rfl

theorem test_decode_eq : decode 0x40221800#32 = .ok (.eq 1 2 3) := by rfl

theorem test_decode_lt : decode 0x44221800#32 = .ok (.lt 1 2 3) := by rfl

theorem test_decode_gt : decode 0x48221800#32 = .ok (.gt 1 2 3) := by rfl

theorem test_decode_addw : decode 0x60221800#32 = .ok (.addw 1 2 3) := by rfl

theorem test_decode_subw : decode 0x64221800#32 = .ok (.subw 1 2 3) := by rfl

theorem test_decode_adds : decode 0x68221800#32 = .ok (.adds 1 2 3) := by rfl

theorem test_decode_subs : decode 0x6C221800#32 = .ok (.subs 1 2 3) := by rfl

theorem test_decode_absd : decode 0x70221800#32 = .ok (.absd 1 2 3) := by rfl

theorem test_decode_min : decode 0x74221800#32 = .ok (.min 1 2 3) := by rfl

theorem test_decode_max : decode 0x78221800#32 = .ok (.max 1 2 3) := by rfl

theorem test_decode_avg : decode 0x7FFFF800#32 = .ok (.avg 31 31 31) := by rfl

theorem test_decode_swapn : decode 0x80220000#32 = .ok (.swapn 1 2) := by rfl

theorem test_decode_revb : decode 0x84220000#32 = .ok (.revb 1 2) := by rfl

theorem test_decode_popc : decode 0x88220000#32 = .ok (.popc 1 2) := by rfl

theorem test_decode_sel : decode 0xA3FEEF00#32 = .ok (.sel 31 30 29 28) := by rfl

theorem test_decode_gath : decode 0xC0220000#32 = .ok (.gath 1 2) := by rfl

theorem test_decode_posb : decode 0xC4220000#32 = .ok (.posb 1 2) := by rfl

/-! ### Malformed words of 95_test_vectors.md section 2.1 -/

theorem test_malformed_00000000 : decode 0x00000000#32 = .error .illegalOpcode := by rfl

theorem test_malformed_FFFFFFFF : decode 0xFFFFFFFF#32 = .error .illegalOpcode := by rfl

theorem test_malformed_14000000 : decode 0x14000000#32 = .error .illegalOpcode := by rfl

theorem test_malformed_04000001 : decode 0x04000001#32 = .error .reservedField := by rfl

theorem test_malformed_20200000 : decode 0x20200000#32 = .error .reservedField := by rfl

theorem test_malformed_60410801 : decode 0x60410801#32 = .error .reservedField := by rfl

theorem test_malformed_88221000 : decode 0x88221000#32 = .error .reservedField := by rfl

theorem test_malformed_A0811001 : decode 0xA0811001#32 = .error .reservedField := by rfl

theorem test_malformed_28410020 : decode 0x28410020#32 = .error .reservedField := by rfl

theorem test_malformed_0C270000 : decode 0x0C270000#32 = .error .illegalCsr := by rfl

theorem test_malformed_10020005 : decode 0x10020005#32 = .error .illegalCsr := by rfl

theorem test_malformed_10000108 : decode 0x10000108#32 = .error .csrRange := by rfl

theorem test_malformed_10010021 : decode 0x10010021#32 = .error .csrRange := by rfl

theorem test_malformed_100903F4 : decode 0x100903F4#32 = .error .reservedField := by rfl

theorem test_malformed_102001FF : decode 0x102001FF#32 = .error .reservedField := by rfl

/-! ### One step of each command -/

/-- The registers of a test. -/
def withRegs (l : List (Reg × Word)) (s : State) : State := l.foldl (fun t p => t.setReg p.1 p.2) s

/-- The buffer of a test: bytes from an address on. -/
def withBytes (a : Nat) (v : List Byte) (s : State) : State := { s with buf := s.buf.writeBytes a v }

/-- The next state, if there is one. -/
def nextOf (r : Result) : Option State :=
  match r with
  | .next t => some t
  | .fault _ => none
  | .refused _ => none

/-- A register after a command. -/
def regAfter (i : Instr) (r : Reg) (s : State) : Option Word := (nextOf (exec i s)).map fun t => t.reg r

/-- The state with the operands of 42_arithmetic.md's examples (41_comparator.md R122, 95_test_vectors.md vectors
A). -/
def vectorsA : State := withRegs [(1, 0xFE8010FF807F0100#64), (2, 0xFF000FFF7F800200#64)] State.reset

/-- The state with the operand of 43_bitops.md's examples. -/
def vectorX : State := withRegs [(1, 0x3C0FA512FF800100#64)] State.reset

/-- The example of R122. -/
theorem test_eq : regAfter (.eq 3 1 2) 3 vectorsA = some 0x0000008000000080#64 := by decide

/-- The example of R124. -/
theorem test_lt : regAfter (.lt 3 1 2) 3 vectorsA = some 0x8000000000808000#64 := by decide

/-- The example of R126. -/
theorem test_gt : regAfter (.gt 3 1 2) 3 vectorsA = some 0x0080800080000000#64 := by decide

/-- The example of R132. -/
theorem test_addw : regAfter (.addw 3 1 2) 3 vectorsA = some 0xFD801FFEFFFF0300#64 := by decide

/-- The example of R134. -/
theorem test_subw : regAfter (.subw 3 1 2) 3 vectorsA = some 0xFF80010001FFFF00#64 := by decide

/-- The example of R136. -/
theorem test_adds : regAfter (.adds 3 1 2) 3 vectorsA = some 0xFF801FFFFFFF0300#64 := by decide

/-- The example of R138. -/
theorem test_subs : regAfter (.subs 3 1 2) 3 vectorsA = some 0x0080010001000000#64 := by decide

/-- The example of R140. -/
theorem test_absd : regAfter (.absd 3 1 2) 3 vectorsA = some 0x0180010001010100#64 := by decide

/-- The example of R142. -/
theorem test_min : regAfter (.min 3 1 2) 3 vectorsA = some 0xFE000FFF7F7F0100#64 := by decide

/-- The example of R144. -/
theorem test_max : regAfter (.max 3 1 2) 3 vectorsA = some 0xFF8010FF80800200#64 := by decide

/-- The example of R146. -/
theorem test_avg : regAfter (.avg 3 1 2) 3 vectorsA = some 0xFE400FFF7F7F0100#64 := by decide

/-- R222: the old value is read; R132: 0x80 + 0x80 wraps to 0x00 (lanes 3 and 1 of vector A's a). -/
theorem test_addw_rd_is_source : regAfter (.addw 1 1 1) 1 vectorsA = some 0xFC0020FE00FE0200#64 := by decide

/-- The example of R151. -/
theorem test_swapn : regAfter (.swapn 2 1) 2 vectorX = some 0xC3F05A21FF081000#64 := by decide

/-- The example of R153. -/
theorem test_revb : regAfter (.revb 2 1) 2 vectorX = some 0x3CF0A548FF018000#64 := by decide

/-- The example of R155. -/
theorem test_popc : regAfter (.popc 2 1) 2 vectorX = some 0x0404040208010100#64 := by decide

/-- The example of R169. -/
theorem test_gath : regAfter (.gath 2 1) 2 vectorX = some 0x0000000000000056#64 := by decide

/-- The example of R166, with bits [63:8] set as 95_test_vectors.md section 2.5 has them. -/
theorem test_posb : regAfter (.posb 2 1) 2 (withRegs [(1, 0xFFFFFFFFFFFFFF84#64)] State.reset) = some 0xFFFFFFFFFFFF0702#64 := by decide

/-- The example of R161. -/
theorem test_sel : regAfter (.sel 4 1 2 3) 4
    (withRegs [(1, 0x1111111111111111#64), (2, 0x2222222222222222#64), (3, 0x0001000100010001#64)] State.reset)
      = some 0x2211221122112211#64 := by decide

/-- The example of R106. -/
theorem test_bci : regAfter (.bci 2 0x20#8) 2 State.reset = some 0x2020202020202020#64 := by decide

/-- The example of R107. -/
theorem test_bcr : regAfter (.bcr 0 1) 0 (withRegs [(1, 0x1122334455667788#64)] State.reset) = some 0x8888888888888888#64 := by decide

/-- "Hello, World!" in the buffer. -/
def hello : State :=
  withBytes 0 [0x48#8, 0x65#8, 0x6C#8, 0x6C#8, 0x6F#8, 0x2C#8, 0x20#8, 0x57#8, 0x6F#8, 0x72#8, 0x6C#8, 0x64#8,
    0x21#8] { State.reset with blen := 13#9 }

/-- The example of R102. -/
theorem test_pack : (nextOf (exec .pack hello)).map (fun t => (t.reg 0, t.reg 1, t.lcnt, t.consumed, t.blen, t.cp))
    = some (0x57202C6F6C6C6548#64, 0#64, 1#6, 8#9, 13#9, 1#16) := by decide

/-- R102 and U2: a buffer below 8 bytes packs nothing and does not fault. -/
theorem test_pack_short : (nextOf (exec .pack { hello with blen := 7#9, lcnt := 5#6 })).map (fun t => (t.reg 0, t.lcnt, t.consumed))
    = some (0#64, 0#6, 0#9) := by decide

/-- The example of R109: any alignment. -/
theorem test_ldl : regAfter (.ldl 1 3#8) 1 hello = some 0x6C726F57202C6F6C#64 := by decide

/-- Byte `a` of the buffer after a command. -/
def byteAfter (i : Instr) (s : State) (a : Nat) : Option Byte := (nextOf (exec i s)).map fun t => t.readByte a

/-- The example of R111, and the bytes beside it. -/
theorem test_stl : [7, 8, 9, 15, 16].map (byteAfter (.stl 5 8#8) (withRegs [(5, 0x0807060504030201#64)] hello))
    = [some 0x57#8, some 0x01#8, some 0x02#8, some 0x08#8, some 0x00#8] := by decide

/-- R111: `imm8 = 255` writes `BUF[255..262]`. -/
theorem test_stl_top : [254, 255, 262].map (byteAfter (.stl 5 255#8) (withRegs [(5, 0x0807060504030201#64)] State.reset))
    = [some 0x00#8, some 0x01#8, some 0x08#8] := by decide

/-- The example of R104; a remainder left in the buffer stays. -/
theorem test_unpack : [0, 1, 7, 8].map (byteAfter .unpack (withRegs [(0, 0x0807060504030201#64)] { hello with lcnt := 1#6 }))
    = [some 0x01#8, some 0x02#8, some 0x08#8, some 0x6F#8] := by decide

/-- The example of R176. -/
theorem test_nop : nextOf (exec .nop { hello with cp := 4#16 }) = some { hello with cp := 5#16 } := by decide

/-- R177: `STATE = DONE`, `CP` stays. -/
theorem test_end : (nextOf (exec .endRun { hello with state := .run, cp := 1#16 })).map (fun t => (t.state, t.cp)) = some (.done, 1#16) := by decide

/-- The example of R178. -/
theorem test_rdc : regAfter (.rdc 6 .consumed) 6 { hello with consumed := 8#9 } = some 8#64 := by decide

/-- R178: `BLEN` of 263 also sets bit 0 of lane 1. -/
theorem test_rdc_blen_two_lanes : regAfter (.rdc 6 .blen) 6 { hello with blen := 263#9 } = some 0x0107#64 := by decide

/-- The example of R179; `LCNT` stays. -/
theorem test_wrc_blen : (nextOf (exec (.wrc .blen 13#9) { State.reset with lcnt := 3#6 })).map (fun t => (t.blen, t.lcnt)) = some (13#9, 3#6) := by decide

/-- The second example of R179. -/
theorem test_wrc_lcnt : (nextOf (exec (.wrc .lcnt 2#9) hello)).map (fun t => (t.blen, t.lcnt)) = some (13#9, 2#6) := by decide

/-! ### Steps: fetch, decode, faults -/

/-- A running state with a given stream. -/
def running (prog : List Cmd) (cp : BitVec 16) : State := { State.reset with state := .run, prog := prog, cp := cp }

/-- `withFetchWord` places the word where the next step fetches (`BCI L1, 0x11`, program P4a). -/
theorem test_step_runs_fetched_word : (nextOf (step (State.reset.withFetchWord 32 0x28200011))).map (fun t => (t.reg 1, t.cp, t.state))
    = some (0x1111111111111111#64, 1#16, .run) := by decide

/-- Program P4a: the second word faults with cause 2 and its own index and word. -/
theorem test_step_reserved_field : (nextOf (step (running [0x28200011#32, 0x60410801#32, 0x08000000#32] 1#16))).map
    (fun t => (t.state, t.cause, t.fcp, t.fcmd, t.cp, t.reg 2))
      = some (.fault, .reservedField, 1#16, 0x60410801#32, 1#16, 0#64) := by decide

/-- Program P4g: the empty stream overruns at once. -/
theorem test_step_overrun : (nextOf (step (running [] 0#16))).map (fun t => (t.state, t.cause, t.fcp, t.fcmd))
    = some (.fault, .fetchOverrun, 0#16, 0#32) := by decide

/-- R32: the unit has no step outside `RUN`. -/
theorem test_no_step_after_reset : step State.reset = .fault .idle := by rfl

/-- R218: `start` begins a run at `CP = 0`. -/
theorem test_start : nextOf (hostAct .start { hello with state := .done, cp := 9#16 })
    = some { hello with state := .run, cp := 0#16 } := by decide

/-- R217: a host write of `BLEN` above 263 is refused. -/
theorem test_host_blen_refused : hostAct (.writeCsr .blen 264) State.reset = .refused .hostOutOfRange := by rfl

/-- The row interface reads the same instruction from a table word. -/
theorem test_decodeTableWord : decodeTableWord 32 0xA08110C0 = some (.sel 4 1 2 3) := by rfl

/-- 30_encoding.md R84: `SEL L4, L1, L2, L3`. -/
theorem test_assemble_sel : assemble { mnemonic := .op .sel, operands := [.reg 4, .reg 1, .reg 2, .reg 3] }
    = some (.sel 4 1 2 3) := by rfl

/-! ### Witnesses: for each statement with hypotheses, a case that meets them -/

/-- A run in `DONE`, a run in `FAULT`, and a running state with data, for the witnesses below. -/
def ended : State := { hello with state := .done, prog := [0x08000000#32] }

/-- The state after program P4c. -/
def faulted : State := raiseFault .illegalOpcode 0#32 (running [0x00000000#32] 0#16)

/-- `hello` about to run a stream. -/
def helloRunning (prog : List Cmd) : State := { hello with state := .run, prog := prog }

theorem invariant_reset : Invariant State.reset where
  blen_le := by decide
  lcnt_le := by decide
  consumed_le := by decide
  consumed_mod := by decide
  buf_wf := by decide
  prog_le := by decide
  cp_le := by decide
  cause_iff := by decide
  no_fault := by decide
  fault_cp := by decide
  overrun := by decide

theorem invariant_hello : Invariant (helloRunning [0x20000000#32, 0x08000000#32]) where
  blen_le := by decide
  lcnt_le := by decide
  consumed_le := by decide
  consumed_mod := by decide
  buf_wf := by decide
  prog_le := by decide
  cp_le := by decide
  cause_iff := by decide
  no_fault := by decide
  fault_cp := by decide
  overrun := by decide

theorem invariant_faulted : Invariant faulted where
  blen_le := by decide
  lcnt_le := by decide
  consumed_le := by decide
  consumed_mod := by decide
  buf_wf := by decide
  prog_le := by decide
  cp_le := by decide
  cause_iff := by decide
  no_fault := by decide
  fault_cp := by decide
  overrun := by decide

theorem witness_DecodeInvertsEncode :
    (Instr.wrc .blen 263#9).wellFormed = true ∧ (Instr.wrc .lcnt 32#9).wellFormed = true := by decide

theorem witness_EncodeInvertsDecode : decode 0xA3FEEF00#32 = .ok (.sel 31 30 29 28) := by rfl

theorem witness_DecodeChecksInOrder :
    (∀ o : Op, opField 0x14000000#32 ≠ o.code) ∧
    (opField 0x04000001#32 = Op.nop.code ∧ 0x04000001#32 &&& Op.nop.format.reserved ≠ 0#32) ∧
    (opField 0x0C270000#32 = Op.rdc.code ∧ 0x0C270000#32 &&& Op.rdc.format.reserved = 0#32
      ∧ (raField 0x0C270000#32).toNat = 7) ∧
    (opField 0x10020005#32 = Op.wrc.code ∧ 0x10020005#32 &&& Op.wrc.format.reserved = 0#32
      ∧ (raField 0x10020005#32).toNat = 2) ∧
    ((raField 0x10000108#32).toNat = 0 ∧ (imm9Field 0x10000108#32).toNat = 264
      ∧ 0x10000108#32 &&& Op.wrc.format.reserved = 0#32) ∧
    ((raField 0x10010021#32).toNat = 1 ∧ (imm9Field 0x10010021#32).toNat = 33
      ∧ 0x10010021#32 &&& Op.wrc.format.reserved = 0#32) ∧
    ((raField 0x0FE60000#32).toNat ≤ 6 ∧ opField 0x0FE60000#32 = Op.rdc.code) ∧
    ((raField 0x10010020#32).toNat = 1 ∧ (imm9Field 0x10010020#32).toNat ≤ 32) ∧
    (∀ w : Cmd, (running [w] 0#16).state = .run ∧ (running [w] 0#16).prog[(running [w] 0#16).cp.toNat]? = some w) ∧
    decode 0x14000000#32 = .error .illegalOpcode ∧
    decode 0x10010021#32 = .error .csrRange ∧ decode 0x10010020#32 = .ok (.wrc .lcnt 32#9) :=
  ⟨fun o => by cases o <;> decide, by decide, by decide, by decide, by decide, by decide, by decide, by decide,
    fun _ => ⟨rfl, rfl⟩, rfl, rfl, rfl⟩

theorem witness_UnassignedOpcodesAndTableRows :
    (∀ o : Op, 0x04000001#32 &&& o.mask ≠ o.pattern) ∧ (∀ o : Op, 0x14000000#32 &&& o.mask ≠ o.pattern) ∧
    (running [0x14000000#32] 0#16).state = .run ∧
    (running [0x14000000#32] 0#16).prog[(running [0x14000000#32] 0#16).cp.toNat]? = some 0x14000000#32 ∧
    decode 0x14000000#32 = .error .illegalOpcode :=
  ⟨fun o => by cases o <;> decide, fun o => by cases o <;> decide, rfl, rfl, rfl⟩

theorem witness_StepRunsDecodedCommand :
    (running [0x04000000#32] 0#16).state = .run ∧ (running [0x04000000#32] 0#16).prog[0]? = some 0x04000000#32
      ∧ decode 0x04000000#32 = .ok .nop := ⟨rfl, rfl, rfl⟩

theorem witness_MalformedWordsTrap :
    (∀ w : Cmd, (running [w] 0#16).state = .run ∧ (running [w] 0#16).prog[(running [w] 0#16).cp.toNat]? = some w) ∧
    (∀ o : Op, opField 0x00000000#32 ≠ o.code) ∧
    (opField 0x60410801#32 = Op.addw.code ∧ 0x60410801#32 &&& Op.addw.format.reserved ≠ 0#32) ∧
    (opField 0x0C270000#32 = 0x03#6 ∧ 0x0C270000#32 &&& 0x0000FFFF#32 = 0#32 ∧ 7 ≤ (raField 0x0C270000#32).toNat) ∧
    (opField 0x10020005#32 = 0x04#6 ∧ 0x10020005#32 &&& 0x03E0FE00#32 = 0#32 ∧ 2 ≤ (raField 0x10020005#32).toNat) ∧
    (opField 0x10000108#32 = 0x04#6 ∧ 0x10000108#32 &&& 0x03E0FE00#32 = 0#32 ∧ (raField 0x10000108#32).toNat = 0
      ∧ 264 ≤ (imm9Field 0x10000108#32).toNat) ∧
    (opField 0x10010021#32 = 0x04#6 ∧ 0x10010021#32 &&& 0x03E0FE00#32 = 0#32 ∧ (raField 0x10010021#32).toNat = 1
      ∧ 33 ≤ (imm9Field 0x10010021#32).toNat) :=
  ⟨fun _ => ⟨rfl, rfl⟩, fun o => by cases o <;> decide, by decide, by decide, by decide, by decide, by decide⟩

theorem witness_FetchOverrunTraps : (running [0x04000000#32] 1#16).state = .run
    ∧ (running [0x04000000#32] 1#16).cp.toNat = (running [0x04000000#32] 1#16).prog.length := ⟨rfl, rfl⟩

theorem witness_FaultsArePrecise : (running [0x00000000#32] 0#16).state = .run
    ∧ step (running [0x00000000#32] 0#16) = .next faulted ∧ faulted.state = .fault := ⟨rfl, rfl, rfl⟩

theorem witness_OnlyResetLeavesFault : faulted.state = .fault ∧ sysStep (.host .start) faulted = .next faulted
    ∧ (∀ v b, sysStep (.host (.reset v b)) faulted = .next (State.resetWith v (Memory.ofBytes b))) :=
  ⟨rfl, rfl, fun _ _ => rfl⟩

theorem witness_ResetLeavesControlStateZero : faulted.state = .fault ∧ State.reset.state ≠ .run
    ∧ (∀ v b, sysStep (.host (.reset v b)) faulted = .next (State.resetWith v (Memory.ofBytes b)))
    ∧ sysStep (.host .start) State.reset = .next { State.reset with state := .run } :=
  ⟨rfl, by decide, fun _ _ => rfl, rfl⟩

theorem witness_StateTransitions :
    (∀ v b, sysStep (.host (.reset v b)) faulted = .next (State.resetWith v (Memory.ofBytes b))) ∧
    (nextOf (sysStep (.host .start) State.reset)).map (fun t => t.state) = some .run ∧
    (nextOf (sysStep .unit (running [0x08000000#32] 0#16))).map (fun t => t.state) = some .done ∧
    (nextOf (sysStep .unit (running [0x00000000#32] 0#16))).map (fun t => t.state) = some .fault ∧
    State.reset.state = .idle ∧ ended.state = .done ∧ (running [0x08000000#32] 0#16).state = .run ∧
    (running [0x08000000#32] 0#16).prog[(running [0x08000000#32] 0#16).cp.toNat]? = some 0x08000000#32 ∧
    decode 0x08000000#32 = .ok .endRun ∧ decode 0x00000000#32 = .error .illegalOpcode ∧
    (running [] 0#16).state = .run ∧ (running [] 0#16).cp.toNat = (running [] 0#16).prog.length :=
  ⟨fun _ _ => rfl, rfl, rfl, rfl, rfl, rfl, rfl, rfl, rfl, rfl, rfl, rfl⟩

theorem witness_CommandPointerAdvance :
    Instr.nop.wellFormed = true ∧ exec .nop hello = .next hello.advance ∧ Instr.endRun.wellFormed = true
      ∧ exec .endRun hello = .next { hello with state := .done }
      ∧ step (running [0x00000000#32] 0#16) = .next faulted := ⟨rfl, rfl, rfl, rfl, rfl⟩

theorem witness_ControlRegistersHaveTheirWriters :
    (nextOf (exec (.wrc .blen 263#9) hello)).map (fun t => t.blen != hello.blen) = some true ∧
    (nextOf (exec (.wrc .lcnt 32#9) hello)).map (fun t => t.lcnt != hello.lcnt) = some true ∧
    (nextOf (exec .pack hello)).map (fun t => t.lcnt != hello.lcnt && t.consumed != hello.consumed) = some true ∧
    (nextOf (exec .endRun hello)).map (fun t => t.state != hello.state) = some true := by decide

theorem witness_StepKeepsInvariant : Invariant (helloRunning [0x20000000#32, 0x08000000#32])
    ∧ (nextOf (step (helloRunning [0x20000000#32, 0x08000000#32]))).map (fun t => t.lcnt) = some 1#6 :=
  ⟨invariant_hello, by decide⟩

theorem witness_HostActionKeepsInvariant : Invariant State.reset
    ∧ hostAct (.loadProg [0x08000000#32]) State.reset = .next { State.reset with prog := [0x08000000#32] } :=
  ⟨invariant_reset, rfl⟩

theorem witness_EveryReachableStateIsCoherent (v : Vector Word 32) (b : Vector Byte 263) :
    ∃ t, sysRun [.host (.loadProg [0x04000000#32, 0x08000000#32]), .host .start, .unit]
      (State.resetWith v (Memory.ofBytes b)) = .next t ∧ t.state = .run := ⟨_, rfl, rfl⟩

theorem witness_StartedRunEnds : Invariant State.reset ∧ State.reset.state = .idle ∧ Invariant faulted
    ∧ faulted.state = .fault ∧ Invariant (helloRunning [0x20000000#32, 0x08000000#32]) :=
  ⟨invariant_reset, rfl, invariant_faulted, rfl, invariant_hello⟩

theorem witness_DoneRunTakesCpPlusOneSteps : ∃ t, Invariant (helloRunning [0x20000000#32, 0x08000000#32])
    ∧ (helloRunning [0x20000000#32, 0x08000000#32]).cp = 0#16
    ∧ runsTo 2 (helloRunning [0x20000000#32, 0x08000000#32]) t ∧ t.state = .done :=
  ⟨_, invariant_hello, rfl, ⟨rfl, _, rfl, rfl, _, rfl, rfl⟩, rfl⟩

theorem witness_ControlIgnoresData : SameControl (running [0x20000000#32] 0#16)
    (withRegs [(1, 7#64)] (withBytes 3 [1#8] (running [0x20000000#32] 0#16))) :=
  ⟨rfl, rfl, rfl, rfl, rfl, rfl, rfl, rfl, rfl⟩

theorem witness_LanesAreIndependent : lane 0x0102#64 0 = lane 0xFF02#64 0 ∧ (0x0102#64 : Word) ≠ 0xFF02#64 := by
  decide

theorem witness_FlagWordPolarityAndLogic : highBitFlag 0x0000808000000080#64 = true
    ∧ highBitFlag 0x8080800080808080#64 = true := by decide

theorem witness_PackAndUnpackSequences : 0 < (List.replicate 13 1#8).length / 8
    ∧ [0x0807060504030201#64][0]? = some 0x0807060504030201#64 ∧ ([] : List Byte).length < 8 := by decide

theorem witness_PackUnpackRoundTrip : Invariant (helloRunning [0x20000000#32, 0x08000000#32]) := invariant_hello

theorem witness_PackCommand : ({ hello with blen := 263#9 } : State).blen.toNat ≤ 263
    ∧ (31 : Reg).val < ({ hello with blen := 263#9 } : State).blen.toNat / 8
    ∧ ({ hello with blen := 7#9 } : State).blen.toNat / 8 ≤ (0 : Reg).val
    ∧ opField 0x20200000#32 = 0x08#6 ∧ 0x20200000#32 &&& 0x03FFFFFF#32 ≠ 0#32 := by decide

theorem witness_UnpackCommand : ({ hello with lcnt := 32#6 } : State).buf.wf = true
    ∧ ({ hello with lcnt := 32#6 } : State).lcnt.toNat ≤ 32 ∧ (31 : Reg).val < ({ hello with lcnt := 32#6 } : State).lcnt.toNat
    ∧ opField 0x24000001#32 = 0x09#6 ∧ 0x24000001#32 &&& 0x03FFFFFF#32 ≠ 0#32 := by decide

theorem witness_IllegalLengthsStop : 263 < ({ hello with blen := 264#9 } : State).blen.toNat
    ∧ 32 < ({ hello with lcnt := 33#6 } : State).lcnt.toNat := by decide

theorem witness_BroadcastImmediateAndLoad : opField 0x28410020#32 = 0x0A#6 ∧ 0x28410020#32 &&& 0x001FFF00#32 ≠ 0#32
    ∧ opField 0x30000108#32 = 0x0C#6 ∧ 0x30000108#32 &&& 0x001FFF00#32 ≠ 0#32 := by decide

theorem witness_StoreLaneWord : hello.buf.wf = true ∧ 262 < groupAddr 255#8 + 8 ∧ 254 < groupAddr 255#8
    ∧ opField 0x34A10008#32 = 0x0D#6 ∧ 0x34A10008#32 &&& 0x001FFF00#32 ≠ 0#32 := by decide

theorem witness_OverlappingStoreThenLoad : hello.buf.wf = true ∧ (254#8 : Byte).toNat < 255 := by decide

theorem witness_ComparatorTrichotomy :
    lane 0x0102#64 0 = lane 0xFF02#64 0 ∧ lane 0x0A02#64 0 = lane 0x0B02#64 0 := by decide

theorem witness_OverflowDetectedByCommands : (3 : Reg) ≠ 1 ∧ (3 : Reg) ≠ 2 ∧ (4 : Reg) ≠ 3
    ∧ 255 < (lane 0x00000000000000FF#64 0).toNat + (lane 0x0000000000000001#64 0).toNat := by decide

theorem witness_AddSatFunction : ∀ i : Fin 8,
    (lane 0x00BF00BF00BF00BF#64 i).toNat ≤ (lane 0x00C000C000C000C0#64 i).toNat := by decide

theorem witness_SubSatFunction : (lane 0x0001#64 0).toNat ≤ (lane 0x00FF#64 0).toNat := by decide

theorem witness_MinAndMaxFunctions : highBitFlag 0x0000808000000080#64 = true
    ∧ highBitFlag 0x8080800080808080#64 = true := by decide

theorem witness_SwapAndReverseFunctions : lane 0x0080#64 0 = 0x80#8 ∧ lane 0x0080#64 1 = 0x00#8 := by decide

theorem witness_PopcountFunction : lane 0x0080#64 0 = 0x80#8 ∧ lane 0x0080#64 1 = 0x00#8 := by decide

theorem witness_SetBitTable : (1 : Fin 8).val < (positionsOfSetBits 0x84#8).length
    ∧ (positionsOfSetBits 0x84#8).length ≤ (2 : Fin 8).val := by decide

theorem witness_ThreeRegisterCommands :
    ∀ c ∈ [0x10#6, 0x11#6, 0x12#6, 0x18#6, 0x19#6, 0x1A#6, 0x1B#6, 0x1C#6, 0x1D#6, 0x1E#6, 0x1F#6],
      opField (c ++ 0x0000400#26) = c ∧ (c ++ 0x0000400#26 : Cmd) &&& 0x000007FF#32 ≠ 0#32 := by decide

theorem witness_TwoRegisterCommands :
    ∀ c ∈ [0x0B#6, 0x20#6, 0x21#6, 0x22#6, 0x30#6, 0x31#6],
      opField (c ++ 0x0008000#26) = c ∧ (c ++ 0x0008000#26 : Cmd) &&& 0x0000FFFF#32 ≠ 0#32 := by decide

theorem witness_SelectCommand : opField 0xA0811001#32 = 0x28#6 ∧ 0xA0811001#32 &&& 0x0000003F#32 ≠ 0#32 := by decide

theorem witness_NopAndEndCommands : opField 0x04000001#32 = 0x01#6 ∧ 0x04000001#32 &&& 0x03FFFFFF#32 ≠ 0#32
    ∧ opField 0x0A000000#32 = 0x02#6 ∧ 0x0A000000#32 &&& 0x03FFFFFF#32 ≠ 0#32 := by decide

theorem witness_ReadControlCommand : opField 0x0C270000#32 = 0x03#6 ∧ 0x0C270000#32 &&& 0x0000FFFF#32 = 0#32
    ∧ 6 < (raField 0x0C270000#32).toNat ∧ 0x0C008000#32 &&& 0x0000FFFF#32 ≠ 0#32 ∧ opField 0x0C008000#32 = 0x03#6
    ∧ Invariant (helloRunning [0x20000000#32, 0x08000000#32])
    ∧ (helloRunning [0x20000000#32, 0x08000000#32]).state = .run :=
  ⟨by decide, by decide, by decide, by decide, by decide, invariant_hello, rfl⟩

theorem witness_WriteControlCommand : (263#9).toNat ≤ 263 ∧ (32#9).toNat ≤ 32
    ∧ opField 0x100903F4#32 = 0x04#6 ∧ 0x100903F4#32 &&& 0x03E0FE00#32 ≠ 0#32
    ∧ 0x10020005#32 &&& 0x03E0FE00#32 = 0#32 ∧ 1 < (raField 0x10020005#32).toNat
    ∧ (raField 0x10000108#32).toNat = 0 ∧ 263 < (imm9Field 0x10000108#32).toNat
    ∧ (raField 0x10010021#32).toNat = 1 ∧ 32 < (imm9Field 0x10010021#32).toNat
    ∧ (running [0x10010021#32] 0#16).state = .run
    ∧ (running [0x10010021#32] 0#16).prog[(running [0x10010021#32] 0#16).cp.toNat]? = some 0x10010021#32
    ∧ decode 0x10010021#32 = .error .csrRange :=
  ⟨by decide, by decide, by decide, by decide, by decide, by decide, by decide, by decide, by decide, by decide,
    rfl, rfl, rfl⟩

theorem witness_HostActionsHaveTheirEffects : State.reset.state = .idle ∧ ended.state = .done
    ∧ [0x08000000#32].length ≤ 65535 ∧ State.reset.buf.wf = true ∧ faulted.state ≠ .run
    ∧ (helloRunning []).state = .run ∧ HostAction.loadProg [] ≠ .start
    ∧ (∀ v b, HostAction.loadProg [] ≠ .reset v b) :=
  ⟨rfl, rfl, by decide, rfl, by decide, rfl, by simp, fun v b => by simp⟩

end Sys2Proof.Tests
end

section
/-! The values of a word and of its lanes as numbers (00_scope.md R10), and the statement on lane numbering. -/

namespace Sys2Proof.Machine

/-- Appending below `x` shifts it up by the width of `y`; the bits of the two do not overlap, so they add. -/
theorem toNat_append_eq_add {m n : Nat} (x : BitVec m) (y : BitVec n) :
    (x ++ y).toNat = x.toNat * 2 ^ n + y.toNat := by
  rw [BitVec.toNat_append, ← Nat.shiftLeft_add_eq_or_of_lt y.isLt, Nat.shiftLeft_eq]

/-- A lane is the quotient of the word by the weight of its lowest bit, modulo 256. -/
theorem lane_eq_ofNat_div (w : Word) (i : Fin 8) : lane w i = BitVec.ofNat 8 (w.toNat / 2 ^ (8 * i.val)) := by
  apply BitVec.eq_of_toNat_eq
  rw [lane, BitVec.extractLsb'_toNat, BitVec.toNat_ofNat, Nat.shiftRight_eq_div_pow]

/-- The value of `mkword f`: lane `i` has the weight `2 ^ (8i)`. The seven appends give Horner's form of the sum, which
`ring` multiplies out. -/
theorem toNat_mkword (f : Fin 8 → Byte) :
    (mkword f).toNat = ((List.finRange 8).map fun i => (f i).toNat * 2 ^ (8 * i.val)).sum := by
  rw [← Fin.sum_univ_def, Fin.sum_univ_eight]
  simp only [mkword, toNat_append_eq_add, Fin.coe_ofNat_eq_mod, Nat.reduceMod]
  ring

/-- Settles O24 (00_scope.md R10): the lane as a quotient and as bits, `mkword` by its lanes and by its value, and
`map1`, `map2` lane by lane. -/
theorem laneNumbering : Obligations.LaneNumbering :=
  ⟨lane_eq_ofNat_div, fun w i k => getLsbD_lane w i k.isLt, lane_mkword, toNat_mkword, lane_map1, lane_map2⟩

end Sys2Proof.Machine
end

section
/-! What the decoder can answer (30_encoding.md R73): a well-formed command, or one of the four decoding causes. -/

namespace Sys2Proof

theorem decodeRdc_wellFormed {w : Cmd} {i : Instr} (h : decodeRdc w = .ok i) : i.wellFormed = true := by
  unfold decodeRdc at h
  split at h <;> cases h
  rfl

theorem decodeWrc_wellFormed {w : Cmd} {i : Instr} (h : decodeWrc w = .ok i) : i.wellFormed = true := by
  unfold decodeWrc at h
  split at h
  · split_ifs at h with hcsr hval
    cases h
    simp [Instr.wellFormed, hcsr, hval]
  · cases h

/-- A command the decoder answers has passed the checks of R73 steps 3 and 4. -/
theorem decode_wellFormed {w : Cmd} {i : Instr} (h : decode w = .ok i) : i.wellFormed = true := by
  unfold decode at h
  split at h
  · cases h
  · rename_i o ho
    split_ifs at h with hres
    cases o with
    | rdc => exact decodeRdc_wellFormed h
    | wrc => exact decodeWrc_wellFormed h
    | _ => cases h; rfl

/-- The causes of the decoding checks (60_exceptions.md R186): neither "no fault" nor the overrun of the fetch. -/
def Cause.OfDecoding (c : Cause) : Prop := c ≠ .none ∧ c ≠ .fetchOverrun

theorem decodeRdc_cause {w : Cmd} {c : Cause} (h : decodeRdc w = .error c) : c.OfDecoding := by
  unfold decodeRdc at h
  split at h <;> cases h
  exact ⟨nofun, nofun⟩

theorem decodeWrc_cause {w : Cmd} {c : Cause} (h : decodeWrc w = .error c) : c.OfDecoding := by
  unfold decodeWrc at h
  split at h
  · split_ifs at h <;> cases h <;> exact ⟨nofun, nofun⟩
  · cases h
    exact ⟨nofun, nofun⟩

/-- The cause of a rejected word is the cause of a decoding check. -/
theorem decode_cause {w : Cmd} {c : Cause} (h : decode w = .error c) : c.OfDecoding := by
  unfold decode at h
  split at h
  · cases h
    exact ⟨nofun, nofun⟩
  · rename_i o ho
    split_ifs at h with hres
    · cases o with
      | rdc => exact decodeRdc_cause h
      | wrc => exact decodeWrc_cause h
      | _ => cases h
    · cases h
      exact ⟨nofun, nofun⟩

end Sys2Proof
end

section
/-! What each agent can do in one event: a command of the unit (30_encoding.md R73 step 5), an action of the host
(70_reset_and_hazards.md R216). -/

namespace Sys2Proof.Machine

/-- The effect of a legal command that answers (30_encoding.md R74): the commands with an effect of their own by name,
and `writesReg` for every command whose one effect besides `CP` is a register write. -/
inductive ExecEffect (s : State) : Instr → State → Prop where
  | nop : ExecEffect s .nop s.advance
  | endRun : ExecEffect s .endRun { s with state := .done }
  | writeBlen (v : BitVec 9) (hv : v.toNat ≤ Config.bufCap) :
      ExecEffect s (.wrc .blen v) { s with blen := v }.advance
  | writeLcnt (v : BitVec 9) (hv : v.toNat ≤ Config.nReg) :
      ExecEffect s (.wrc .lcnt v) { s with lcnt := v.setWidth 6 }.advance
  | pack (hn : s.packCount ≤ Config.nReg) :
      ExecEffect s .pack { s with
        x := packedRegs s s.packCount
        lcnt := BitVec.ofNat 6 s.packCount
        consumed := BitVec.ofNat 9 (8 * s.packCount) }.advance
  | unpack (hn : s.lcnt.toNat ≤ Config.nReg) :
      ExecEffect s .unpack { s with buf := s.buf.writeBytes 0 (fUnpack (firstRegs s s.lcnt.toNat)) }.advance
  | stl (rs : Reg) (imm8 : Byte) :
      ExecEffect s (.stl rs imm8) (s.storeGroup (groupAddr imm8) (s.reg rs)).advance
  | writesReg {i : Instr} (hi : i ≠ .endRun) (rd : Reg) (v : Word) : ExecEffect s i (s.setReg rd v).advance

theorem ExecEffect.of_setReg {i : Instr} {s t : State} {rd : Reg} {v : Word} (hi : i ≠ .endRun)
    (h : retire (s.setReg rd v) = .next t) : ExecEffect s i t := by
  obtain rfl := retire_eq_next.1 h
  exact .writesReg hi rd v

theorem execWrc_effect {csr : Csr} {imm9 : BitVec 9} {s t : State} (hwf : (Instr.wrc csr imm9).wellFormed = true)
    (h : execWrc csr imm9 s = .next t) : ExecEffect s (.wrc csr imm9) t := by
  cases csr with
  | blen =>
    have hv : imm9.toNat ≤ Config.bufCap := of_decide_eq_true hwf
    simp only [execWrc, if_pos hv, retire_eq_next] at h
    exact h ▸ .writeBlen imm9 hv
  | lcnt =>
    have hv : imm9.toNat ≤ Config.nReg := of_decide_eq_true hwf
    simp only [execWrc, if_pos hv, retire_eq_next] at h
    exact h ▸ .writeLcnt imm9 hv
  | consumed | state | cause | fcp | fcmd => cases hwf

/-- What a legal command that answers can have done. -/
theorem exec_effect {i : Instr} {s t : State} (hwf : i.wellFormed = true) (h : exec i s = .next t) :
    ExecEffect s i t := by
  cases i with
  | nop =>
    obtain rfl := retire_eq_next.1 h
    exact .nop
  | endRun =>
    cases h
    exact .endRun
  | wrc csr imm9 => exact execWrc_effect hwf h
  | pack =>
    simp only [exec, execPack] at h
    split_ifs at h with hn
    obtain rfl := retire_eq_next.1 h
    exact .pack hn
  | unpack =>
    simp only [exec, execUnpack] at h
    split_ifs at h with hn
    obtain rfl := retire_eq_next.1 h
    exact .unpack hn
  | stl rs imm8 =>
    obtain rfl := retire_eq_next.1 h
    exact .stl rs imm8
  | _ => exact .of_setReg nofun h

/-- The effect of a host action that is taken (70_reset_and_hazards.md R216): the state that allows it, the range of
its arguments, and the writes. -/
inductive HostEffect (s : State) : HostAction → State → Prop where
  | reset (v : Vector Word 32) (b : Vector Byte 263) :
      HostEffect s (.reset v b) (State.resetWith v (Memory.ofBytes b))
  | start : HostEffect s .start (startRun s)
  | loadProg (words : List Cmd) (hs : s.state.hostMayWrite = true) (hw : progWellFormed words = true) :
      HostEffect s (.loadProg words) { s with prog := words }
  | writeReg (r : Reg) (v : Word) (hs : s.state.hostMayWrite = true) : HostEffect s (.writeReg r v) (s.setReg r v)
  | writeBuf (a : Nat) (b : Byte) (hs : s.state.hostMayWrite = true) (ha : a < Config.bufCap) :
      HostEffect s (.writeBuf a b) { s with buf := s.buf.write a b }
  | writeBlen (v : Nat) (hs : s.state.hostMayWrite = true) (hv : v ≤ Config.bufCap) :
      HostEffect s (.writeCsr .blen v) { s with blen := BitVec.ofNat 9 v }
  | writeLcnt (v : Nat) (hs : s.state.hostMayWrite = true) (hv : v ≤ Config.nReg) :
      HostEffect s (.writeCsr .lcnt v) { s with lcnt := BitVec.ofNat 6 v }

theorem hostWrite_eq_next {s t : State} {effect : Result} :
    hostWrite s effect = .next t ↔ s.state.hostMayWrite = true ∧ effect = .next t := by
  unfold hostWrite
  split_ifs with hs <;> simp [hs]

/-- What a host action that is taken can have done. -/
theorem hostAct_effect {a : HostAction} {s t : State} (h : hostAct a s = .next t) : HostEffect s a t := by
  cases a with
  | reset v b =>
    cases h
    exact .reset v b
  | start =>
    cases h
    exact .start
  | loadProg words =>
    obtain ⟨hs, h⟩ := hostWrite_eq_next.1 h
    split_ifs at h with hw
    cases h
    exact .loadProg words hs hw
  | writeReg r v =>
    obtain ⟨hs, h⟩ := hostWrite_eq_next.1 h
    cases h
    exact .writeReg r v hs
  | writeBuf a b =>
    obtain ⟨hs, h⟩ := hostWrite_eq_next.1 h
    split_ifs at h with ha
    cases h
    exact .writeBuf a b hs ha
  | writeCsr csr v =>
    obtain ⟨hs, h⟩ := hostWrite_eq_next.1 h
    cases csr with
    | blen =>
      simp only [hostWriteCsr] at h
      split_ifs at h with hv
      cases h
      exact .writeBlen v hs hv
    | lcnt =>
      simp only [hostWriteCsr] at h
      split_ifs at h with hv
      cases h
      exact .writeLcnt v hs hv
    | consumed | state | cause | fcp | fcmd => cases h

end Sys2Proof.Machine
end

section
/-! The control state (10_state.md R28 to R35): which commands write it, how `STATE` moves, and the invariant every step
keeps. -/

namespace Sys2Proof.Machine

/-! ### The writers of the control registers -/

/-- Settles O15 (10_state.md R28 to R33, 20_memory.md R64), by the effects a legal command can have. -/
theorem controlRegistersHaveTheirWriters : Obligations.ControlRegistersHaveTheirWriters := by
  intro i s t hwf h
  cases exec_effect hwf h with
  | nop | unpack | stl | writesReg => -- these write data and `CP` only
    exact ⟨⟨rfl, rfl, rfl⟩, rfl, absurd rfl, absurd rfl, absurd rfl, absurd rfl⟩
  | endRun | writeBlen | writeLcnt | pack => simp [SameFaultRegs]

/-! ### The transitions of `STATE` -/

/-- A run starts from `IDLE` or `DONE`; elsewhere `start` leaves `STATE` (70_reset_and_hazards.md R218). -/
theorem startRun_state (s : State) :
    (startRun s).state = if s.state = .idle ∨ s.state = .done then .run else s.state := by
  unfold startRun
  split <;> simp [*]

/-- The unit moves `STATE` from `RUN` only, by fault entry or by an `END` (10_state.md R32). -/
theorem step_state {s t : State} (h : step s = .next t) (hne : t.state ≠ s.state) :
    s.state = .run ∧ (t.state = .fault ∨
      t.state = .done ∧ ∃ w, s.prog[s.cp.toNat]? = some w ∧ decode w = .ok .endRun) := by
  obtain ⟨hrun, ⟨-, rfl⟩ | ⟨w, c, -, -, rfl⟩ | ⟨w, i, hfetch, hdec, hexec⟩⟩ := step_cases h
  · exact ⟨hrun, .inl rfl⟩
  · exact ⟨hrun, .inl rfl⟩
  · obtain ⟨-, -, -, -, -, hstate⟩ := controlRegistersHaveTheirWriters i s t (decode_wellFormed hdec) hexec
    obtain ⟨rfl, hdone⟩ := hstate hne
    exact ⟨hrun, .inr ⟨hdone, w, hfetch, hdec⟩⟩

/-- The host moves `STATE` by `reset` and by `start` from `IDLE` or `DONE` only (70_reset_and_hazards.md R216). -/
theorem hostAct_state {a : HostAction} {s t : State} (h : hostAct a s = .next t) (hne : t.state ≠ s.state) :
    ((∃ v b, a = .reset v b) ∧ t.state = .idle) ∨
      (a = .start ∧ (s.state = .idle ∨ s.state = .done) ∧ t.state = .run) := by
  cases hostAct_effect h with
  | reset v b => exact .inl ⟨⟨v, b, rfl⟩, rfl⟩
  | start =>
    rw [startRun_state] at hne ⊢
    split_ifs at hne ⊢ with hs
    · exact .inr ⟨rfl, hs, rfl⟩
    · exact absurd rfl hne
  | loadProg | writeReg | writeBuf | writeBlen | writeLcnt => exact absurd rfl hne

/-- The step over a word that decodes is the command (30_encoding.md R73 step 5). -/
theorem step_of_decode_ok {s : State} {w : Cmd} {i : Instr} (hrun : s.state = .run)
    (hfetch : s.prog[s.cp.toNat]? = some w) (hdec : decode w = .ok i) : step s = exec i s := by
  simp [step, fetch, hrun, hfetch, hdec]

/-- The step over a rejected word takes its fault (30_encoding.md R73). -/
theorem step_of_decode_error {s : State} {w : Cmd} {c : Cause} (hrun : s.state = .run)
    (hfetch : s.prog[s.cp.toNat]? = some w) (hdec : decode w = .error c) : step s = trap c w s := by
  simp [step, fetch, hrun, hfetch, hdec]

/-- The step at the end of the stream takes `FETCH_OVERRUN` (60_exceptions.md R191). -/
theorem step_of_overrun {s : State} (hrun : s.state = .run) (hcp : s.prog.length ≤ s.cp.toNat) :
    step s = trap .fetchOverrun 0#32 s := by
  simp [step, fetch, hrun, hcp]

/-- Settles O13 (10_state.md R32). -/
theorem stateTransitions : Obligations.StateTransitions := by
  refine ⟨rfl, ?only, fun s t h => (step_cases h).1, fun s v b => ⟨_, rfl, rfl⟩, ?start, ?ends, ?rejects,
    ?overrun, ?rdc⟩
  case only =>
    intro e s t h hne
    cases e with
    | host a =>
      obtain ⟨⟨v, b, rfl⟩, hidle⟩ | ⟨rfl, hs, hrun⟩ := hostAct_state h hne
      · exact .inl ⟨⟨v, b, rfl⟩, hidle⟩
      · exact .inr (.inl ⟨rfl, hs, hrun⟩)
    | unit =>
      obtain ⟨hrun, hfault | ⟨hdone, hend⟩⟩ := step_state h hne
      · exact .inr (.inr (.inr ⟨rfl, hrun, hfault⟩))
      · exact .inr (.inr (.inl ⟨rfl, hrun, hdone, hend⟩))
  case start => exact fun s hs => ⟨startRun s, rfl, by rw [startRun_state, if_pos hs]⟩
  case ends =>
    exact fun s w hrun hfetch hdec => ⟨{ s with state := .done }, step_of_decode_ok hrun hfetch hdec, rfl⟩
  case rejects =>
    exact fun s w c hrun hfetch hdec => ⟨raiseFault c w s, step_of_decode_error hrun hfetch hdec, rfl⟩
  case overrun => exact fun s hrun hcp => ⟨raiseFault .fetchOverrun 0#32 s, step_of_overrun hrun hcp.ge, rfl⟩
  case rdc =>
    intro rd s hrun
    have hread : s.csr .state = 1#64 := by simp [State.csr, hrun, RunState.code]
    exact hread ▸ completesWith_of_setReg rfl

/-! ### The invariant -/

/-- The part of `Invariant` that speaks of lengths and buffer (93_implementation_defined.md U8), which the commands
write. -/
structure LegalData (s : State) : Prop where
  blen_le : s.blen.toNat ≤ Config.bufCap
  lcnt_le : s.lcnt.toNat ≤ Config.nReg
  consumed_le : s.consumed.toNat ≤ 256
  consumed_mod : s.consumed.toNat % 8 = 0
  buf_wf : s.buf.wf = true

theorem Invariant.legalData {s : State} (h : Invariant s) : LegalData s :=
  ⟨h.blen_le, h.lcnt_le, h.consumed_le, h.consumed_mod, h.buf_wf⟩

/-- `LCNT` and `CONSUMED` as `PACK` writes them fit their registers (40_codec.md R102). -/
theorem toNat_packLengths {n : Nat} (hn : n ≤ Config.nReg) :
    (BitVec.ofNat 6 n).toNat = n ∧ (BitVec.ofNat 9 (8 * n)).toNat = 8 * n := by
  simp only [Config.nReg] at hn
  simp only [BitVec.toNat_ofNat]
  omega

theorem LegalData.advance {s : State} (h : LegalData s) : LegalData s.advance :=
  ⟨h.blen_le, h.lcnt_le, h.consumed_le, h.consumed_mod, h.buf_wf⟩

/-- A legal command keeps the lengths in their ranges and the buffer canonical. -/
theorem ExecEffect.legalData {s t : State} {i : Instr} (he : ExecEffect s i t) (h : LegalData s) : LegalData t := by
  cases he with
  | nop => exact h.advance
  | endRun | writesReg => exact { h with }
  | writeBlen v hv => exact LegalData.advance { h with blen_le := hv }
  | writeLcnt v hv =>
    refine LegalData.advance { h with lcnt_le := ?_ }
    rw [BitVec.toNat_setWidth]
    exact (Nat.mod_le _ _).trans hv
  | pack hn =>
    obtain ⟨hlcnt, hconsumed⟩ := toNat_packLengths hn
    apply LegalData.advance
    constructor
    case blen_le => exact h.blen_le
    case lcnt_le => exact hlcnt.trans_le hn
    case consumed_le => exact hconsumed.trans_le (Nat.mul_le_mul_left 8 hn)
    case consumed_mod => rw [hconsumed, Nat.mul_mod_right]
    case buf_wf => exact h.buf_wf
  | unpack hn =>
    refine LegalData.advance { h with buf_wf := Memory.wf_writeBytes h.buf_wf _ ?_ }
    rw [length_fUnpack, length_firstRegs s hn, Nat.zero_add]
    exact (Nat.mul_le_mul_left 8 hn).trans (by decide)
  | stl rs imm8 => exact LegalData.advance { h with buf_wf := wf_storeGroup h.buf_wf (groupAddr_le imm8) _ }

/-- A legal command moves `CP` by at most one (30_encoding.md R74). -/
theorem ExecEffect.cp_le {s t : State} {i : Instr} (he : ExecEffect s i t) : t.cp.toNat ≤ s.cp.toNat + 1 := by
  have hadv : (s.cp + 1#16).toNat ≤ s.cp.toNat + 1 := by
    rw [BitVec.toNat_add]
    exact Nat.mod_le _ _
  cases he with
  | endRun => exact Nat.le_succ _
  | _ => exact hadv

/-- In `RUN` no fault is recorded (60_exceptions.md R197). -/
theorem Invariant.noFault_of_run {s : State} (h : Invariant s) (hrun : s.state = .run) :
    s.cause = .none ∧ s.fcp = 0#16 ∧ s.fcmd = 0#32 := by
  have hcause : s.cause = .none := by
    by_contra hne
    exact absurd (hrun.symm.trans (h.cause_iff.1 hne)) nofun
  exact ⟨hcause, h.no_fault hcause⟩

/-- Fault entry from `RUN` keeps the invariant, when the recorded cause is a fault and an overrun is recorded at the
end of the stream (60_exceptions.md R191, R195). -/
theorem invariant_raiseFault {s : State} (h : Invariant s) (hrun : s.state = .run) {c : Cause} {w : Cmd}
    (hc : c ≠ .none) (hover : c = .fetchOverrun → s.cp.toNat = s.prog.length ∧ w = 0#32) :
    Invariant (raiseFault c w s) where
  blen_le := h.blen_le
  lcnt_le := h.lcnt_le
  consumed_le := h.consumed_le
  consumed_mod := h.consumed_mod
  buf_wf := h.buf_wf
  prog_le := h.prog_le
  cp_le _ := h.cp_le (.inl hrun)
  cause_iff := ⟨fun _ => rfl, fun _ => hc⟩
  no_fault hnone := absurd hnone hc
  fault_cp _ := rfl
  overrun := hover

/-- A command run from `RUN` keeps the invariant: it writes legal lengths and a canonical buffer, no fault register,
and leaves `CP` within the stream it was fetched from. -/
theorem invariant_of_exec {s t : State} (h : Invariant s) (hrun : s.state = .run) (hcp : s.cp.toNat < s.prog.length)
    {i : Instr} (hwf : i.wellFormed = true) (hexec : exec i s = .next t) : Invariant t := by
  have he := exec_effect hwf hexec
  obtain ⟨hblen, hlcnt, hconsumed, hmod, hbuf⟩ := he.legalData h.legalData
  obtain ⟨⟨hcause, hfcp, hfcmd⟩, hprog, -, -, -, hstate⟩ := controlRegistersHaveTheirWriters i s t hwf hexec
  obtain ⟨hnone, hfcp0, hfcmd0⟩ := h.noFault_of_run hrun
  rw [hnone] at hcause
  have hnofault : t.state ≠ .fault := by
    by_cases hsame : t.state = s.state
    · simp [hsame, hrun]
    · simp [(hstate hsame).2]
  exact {
    blen_le := hblen
    lcnt_le := hlcnt
    consumed_le := hconsumed
    consumed_mod := hmod
    buf_wf := hbuf
    prog_le := hprog ▸ h.prog_le
    cp_le := fun _ => hprog ▸ he.cp_le.trans hcp
    cause_iff := ⟨fun hne => absurd hcause hne, fun hf => absurd hf hnofault⟩
    no_fault := fun _ => ⟨hfcp.trans hfcp0, hfcmd.trans hfcmd0⟩
    fault_cp := fun hf => absurd hf hnofault
    overrun := fun ho => absurd (hcause.symm.trans ho) nofun }

/-- Settles O18 (93_implementation_defined.md U8), by what a step that answers can have been: at the overrun `CP` has
reached `NCMD`, a rejected word enters `FAULT` with a cause of the decoder, and a decoded command is a legal one. -/
theorem stepKeepsInvariant : Obligations.StepKeepsInvariant := by
  intro s t h hstep
  obtain ⟨hrun, ⟨hfetch, rfl⟩ | ⟨w, c, -, hdec, rfl⟩ | ⟨w, i, hfetch, hdec, hexec⟩⟩ := step_cases hstep
  · have hend : s.prog.length ≤ s.cp.toNat := List.getElem?_eq_none_iff.1 hfetch
    exact invariant_raiseFault h hrun nofun fun _ => ⟨(h.cp_le (.inl hrun)).antisymm hend, rfl⟩
  · obtain ⟨hnone, hover⟩ := decode_cause hdec
    exact invariant_raiseFault h hrun hnone fun ho => absurd ho hover
  · obtain ⟨hcp, -⟩ := List.getElem?_eq_some_iff.1 hfetch
    exact invariant_of_exec h hrun hcp (decode_wellFormed hdec) hexec

/-- Reset leaves a state that meets the invariant, whatever it leaves in `x`, and in `BUF` in canonical form. -/
theorem invariant_resetWith (v : Vector Word 32) {m : Memory} (hm : m.wf = true) :
    Invariant (State.resetWith v m) where
  blen_le := Nat.zero_le _
  lcnt_le := Nat.zero_le _
  consumed_le := Nat.zero_le _
  consumed_mod := rfl
  buf_wf := hm
  prog_le := Nat.zero_le _
  cp_le _ := Nat.zero_le _
  cause_iff := ⟨fun h => absurd rfl h, nofun⟩
  no_fault _ := ⟨rfl, rfl⟩
  fault_cp := nofun
  overrun := nofun

/-- Writing unlisted values to the empty buffer lists nothing. -/
theorem Memory.writeBytes_replicate_resetByte (n a : Nat) :
    Memory.writeBytes [] a (List.replicate n Config.resetByte) = [] := by
  induction n generalizing a with
  | zero => rfl
  | succ n ih => simpa [List.replicate_succ, Memory.writeBytes, Memory.write] using ih (a + 1)

/-- `State.reset` is reset with every register and every byte at the value the model names (logs 1 and 2). -/
theorem reset_eq_resetWith : State.reset = State.resetWith (Vector.replicate 32 Config.resetWord)
    (Memory.ofBytes (Vector.replicate 263 Config.resetByte)) := by
  rw [Memory.ofBytes, Vector.toList_replicate, Memory.writeBytes_replicate_resetByte, State.reset]

/-- Settles O17 (10_state.md R41). -/
theorem resetMeetsInvariant : Obligations.ResetMeetsInvariant :=
  ⟨fun v b => invariant_resetWith v (Memory.wf_ofBytes b), invariant_resetWith _ rfl, _, _, reset_eq_resetWith⟩

end Sys2Proof.Machine
end

section
/-! Lane independence and flag words (10_state.md R23, R24). -/

namespace Sys2Proof.Machine

/-! ### Lane-wise functions -/

/-- The eleven functions of two operands are lane-wise by definition (41_comparator.md, 42_arithmetic.md). -/
theorem exists_map2 : ∀ f ∈ [fEqual, fLess, fGreater, fAddWrap, fSubWrap, fAddSat, fSubSat, fAbsDiff, fMin, fMax,
    fAverage], ∃ g, ∀ a b, f a b = map2 g a b := by
  simp only [List.forall_mem_cons]
  refine ⟨?_, ?_, ?_, ?_, ?_, ?_, ?_, ?_, ?_, ?_, ?_, nofun⟩
  all_goals exact ⟨_, fun _ _ => rfl⟩

/-- The three functions of one operand are lane-wise by definition (43_bitops.md). -/
theorem exists_map1 : ∀ f ∈ [fSwapNibbles, fReverseBits, fPopcount], ∃ g, f = map1 g := by
  simp only [List.forall_mem_cons]
  exact ⟨⟨_, rfl⟩, ⟨_, rfl⟩, ⟨_, rfl⟩, nofun⟩

/-- Settles O25 (10_state.md R23). -/
theorem lanesAreIndependent : Obligations.LanesAreIndependent := by
  refine ⟨?two, ?one, ?select⟩
  case two =>
    intro f hf a b a' b' i ha hb
    obtain ⟨g, hg⟩ := exists_map2 f hf
    rw [hg, hg, lane_map2, lane_map2, ha, hb]
  case one =>
    intro f hf a a' i ha
    obtain ⟨g, rfl⟩ := exists_map1 f hf
    rw [lane_map1, lane_map1, ha]
  case select =>
    intro a b f a' b' f' i ha hb hf
    rw [lane_fSelect, lane_fSelect, lowFlag, lowFlag, ha, hb, hf]

/-! ### Flag words -/

/-- A high-bit flag word is one whose lanes are 0x00 or 0x80 (10_state.md R24 (a)). -/
theorem highBitFlag_iff {w : Word} : highBitFlag w = true ↔ ∀ i, lane w i = 0x00#8 ∨ lane w i = 0x80#8 := by
  simp [highBitFlag]

theorem highBitFlag_of_lane_eq_flagByte {w : Word} {p : Fin 8 → Bool} (h : ∀ i, lane w i = flagByte (p i)) :
    highBitFlag w = true := by
  refine highBitFlag_iff.2 fun i => ?_
  rw [h i]
  cases p i
  · exact .inl rfl
  · exact .inr rfl

/-- `F_selectByFlag` reads its flag operand through `lowFlag` only. -/
theorem fSelect_congr {f g : Word} (h : ∀ i, lowFlag f i = lowFlag g i) (a b : Word) :
    fSelect a b f = fSelect a b g :=
  word_ext fun i => by rw [lane_fSelect, lane_fSelect, h i]

/-- `F_gatherLowBits` reads its operand through `lowFlag` only. -/
theorem fGather_congr {f g : Word} (h : ∀ i, lowFlag f i = lowFlag g i) : fGather f = fGather g := by
  have hbit (i : Fin 8) : (lane f i).extractLsb' 0 1 = (lane g i).extractLsb' 0 1 := by
    apply BitVec.eq_of_getLsbD_eq
    intro k hk
    obtain rfl : k = 0 := by omega
    simpa [lowFlag] using h i
  simp only [fGather, hbit]

/-- Masking with `LOWBITS` keeps the meaning of every flag lane. -/
theorem lowFlag_and_lowBits (f : Word) (i : Fin 8) : lowFlag (f &&& Config.lowBits) i = lowFlag f i := by
  simp [lowFlag]

/-- "Bit 0 of a high-bit flag lane is always 0" (10_state.md R24). -/
theorem lowFlag_of_highBitFlag {f : Word} (h : highBitFlag f = true) (i : Fin 8) : lowFlag f i = false := by
  obtain h | h := highBitFlag_iff.1 h i <;> rw [lowFlag, h] <;> rfl

/-- A high-bit flag lane through popcount, bit reversal and the subtraction from 0x80. -/
theorem flagLane_conversions {b : Byte} (h : b = 0x00#8 ∨ b = 0x80#8) :
    lanePopcount b = (if b = 0x80#8 then 0x01#8 else 0x00#8) ∧ laneReverseBits b = lanePopcount b ∧
      laneSubWrap 0x80#8 b = ~~~b &&& 0x80#8 := by
  obtain rfl | rfl := h <;> decide

/-- Minimum and maximum of high-bit flag lanes are conjunction and disjunction. -/
theorem flagLane_logic {b c : Byte} (hb : b = 0x00#8 ∨ b = 0x80#8) (hc : c = 0x00#8 ∨ c = 0x80#8) :
    laneMin b c = b &&& c ∧ laneMax b c = b ||| c := by
  obtain rfl | rfl := hb <;> obtain rfl | rfl := hc <;> decide

/-- Settles O26 (10_state.md R24, 30_encoding.md R86). -/
theorem flagWordPolarityAndLogic : Obligations.FlagWordPolarityAndLogic := by
  refine ⟨?comparators, ?select, ?gather, ?highBit, ?logic⟩
  case comparators =>
    exact fun v c => ⟨highBitFlag_of_lane_eq_flagByte (lane_fEqual v c),
      highBitFlag_of_lane_eq_flagByte (lane_fLess v c), highBitFlag_of_lane_eq_flagByte (lane_fGreater v c)⟩
  case select => exact fun a b f => fSelect_congr (fun i => (lowFlag_and_lowBits f i).symm) a b
  case gather => exact fun f => fGather_congr fun i => (lowFlag_and_lowBits f i).symm
  case highBit =>
    intro f hf
    have hlane := highBitFlag_iff.1 hf
    have hlow := lowFlag_of_highBitFlag hf
    have hgather : fGather f = fGather 0#64 := fGather_congr fun i => by rw [hlow i, lowFlag, lane_zero]; rfl
    refine ⟨hlow, fun a b => word_ext fun i => by simp [hlow i], hgather.trans (by decide), fun i => ?_,
      word_ext fun i => ?_, word_ext fun i => ?_⟩
    all_goals obtain ⟨hpop, hrev, hsub⟩ := flagLane_conversions (hlane i)
    · rw [lane_fPopcount, hpop]
    · rw [lane_fReverseBits, lane_fPopcount, hrev]
    · rw [lane_fSubWrap, lane_and, lane_not, lane_highBits, hsub]
  case logic =>
    intro f g hf hg
    have hlogic i := flagLane_logic (highBitFlag_iff.1 hf i) (highBitFlag_iff.1 hg i)
    exact ⟨word_ext fun i => by rw [lane_fMin, lane_and, (hlogic i).1],
      word_ext fun i => by rw [lane_fMax, lane_or, (hlogic i).2]⟩

end Sys2Proof.Machine
end

section
/-! Byte memory (20_memory.md): the block commands at lengths no run reaches, and the 8-byte groups of `LDL` and `STL`
at overlapping addresses. -/

namespace Sys2Proof.Machine

/-! ### The guards of the block commands -/

/-- The words `PACK` makes fit the registers exactly when `BLEN` is legal (20_memory.md R50). -/
theorem packCount_le_nReg_iff {s : State} : s.packCount ≤ Config.nReg ↔ s.blen.toNat ≤ Config.bufCap := by
  simp only [State.packCount, Config.nReg, Config.bufCap]
  omega

/-- `PACK` stops by name exactly on the lengths above 263. -/
theorem exec_pack_eq_fault_iff {s : State} : exec .pack s = .fault .blockRange ↔ Config.bufCap < s.blen.toNat := by
  rw [← not_le, ← packCount_le_nReg_iff]
  simp only [exec, execPack]
  split_ifs with hn <;> simp [hn, retire]

/-- `UNPACK` stops by name exactly on the counts above 32. -/
theorem exec_unpack_eq_fault_iff {s : State} : exec .unpack s = .fault .blockRange ↔ Config.nReg < s.lcnt.toNat := by
  rw [← not_le]
  simp only [exec, execUnpack]
  split_ifs with hn <;> simp [hn, retire]

/-- Settles O33 (the model's choice, log 9), by the guards of the two commands. -/
theorem illegalLengthsStop : Obligations.IllegalLengthsStop :=
  ⟨fun _ => exec_pack_eq_fault_iff.2, fun _ => exec_unpack_eq_fault_iff.2⟩

/-! ### Storing and loading a group -/

/-- Inside the stored group `BUF` holds the lanes of the word. -/
theorem readByte_storeGroup_lane {s : State} (hwf : s.buf.wf = true) {addr : Nat} (ha : addr + 8 ≤ Config.bufCap)
    (w : Word) (j : Fin 8) : (s.storeGroup addr w).readByte (addr + j.val) = lane w j := by
  rw [readByte_storeGroup hwf ha, dif_pos (by omega)]
  simp

/-- Outside the stored group `BUF` keeps its bytes. -/
theorem readByte_storeGroup_outside {s : State} (hwf : s.buf.wf = true) {addr : Nat} (ha : addr + 8 ≤ Config.bufCap)
    (w : Word) {b : Nat} (hb : b < addr ∨ addr + 8 ≤ b) : (s.storeGroup addr w).readByte b = s.readByte b := by
  rw [readByte_storeGroup hwf ha, dif_neg (by omega)]

/-- `STL` by the bytes of `BUF` after it (40_codec.md R111). -/
theorem exec_stl_readByte (rs : Reg) (imm8 : Byte) {s : State} (hwf : s.buf.wf = true) :
    ∃ t, exec (.stl rs imm8) s = .next t ∧
      (∀ j : Fin 8, t.readByte (groupAddr imm8 + j.val) = lane (s.reg rs) j) ∧
      ∀ b, b < groupAddr imm8 ∨ groupAddr imm8 + 8 ≤ b → t.readByte b = s.readByte b :=
  ⟨_, rfl, readByte_storeGroup_lane hwf (groupAddr_le imm8) _,
    fun _ => readByte_storeGroup_outside hwf (groupAddr_le imm8) _⟩

/-- `LDL` by the lanes of the register after it (40_codec.md R109). -/
theorem exec_ldl_lane (rd : Reg) (imm8 : Byte) (s : State) :
    ∃ t, exec (.ldl rd imm8) s = .next t ∧
      ∀ j : Fin 8, lane (t.reg rd) j = s.readByte (groupAddr imm8 + j.val) := by
  refine ⟨_, rfl, fun j => ?_⟩
  rw [State.reg_advance, State.reg_setReg_same, lane_bytesToLane, Memory.getElem_readGroup, State.readByte]

/-- The next immediate names the group one byte higher, below the largest one (30_encoding.md R78). -/
theorem groupAddr_add_one {imm8 : Byte} (h : imm8.toNat < 255) : groupAddr (imm8 + 1#8) = groupAddr imm8 + 1 := by
  simp only [groupAddr]
  bv_omega

/-- Settles O36 (20_memory.md R54, R55): lane `j` of `y` is byte `a + 1 + j`, which for `j` below 7 is byte `j + 1` of
the stored group and for `j = 7` the first byte past it. -/
theorem overlappingStoreThenLoad : Obligations.OverlappingStoreThenLoad := by
  intro rx ry a s hwf ha
  obtain ⟨t, hstl, hstored, hkept⟩ := exec_stl_readByte rx a hwf
  obtain ⟨u, hldl, hloaded⟩ := exec_ldl_lane ry (a + 1#8) t
  rw [groupAddr_add_one ha] at hloaded
  refine ⟨t, u, hstl, hldl, fun j hj => ?_, ?_⟩
  · rw [hloaded j, Nat.add_assoc, Nat.add_comm 1]
    exact hstored ⟨j.val + 1, hj⟩
  · rw [hloaded 7]
    exact hkept _ (.inr le_rfl)

end Sys2Proof.Machine
end

section
/-! Encoding and decoding are inverse (30_encoding.md R72, R73, R77): the fields of a word of each format, the decoder's
checks as equivalences, and both round trips. -/

namespace Sys2Proof

open Machine (toNat_append_eq_add)

/-! ### Must-be-zero bits as fields -/

/-- A field of a word is zero exactly when the field's mask finds no bit set. -/
theorem and_mask_eq_zero_iff {w : Cmd} (k n : Nat) (h : k + n ≤ 32) :
    w &&& (BitVec.allOnes n).setWidth 32 <<< k = 0#32 ↔ w.extractLsb' k n = 0#n := by
  constructor
  · intro hw
    apply BitVec.eq_of_getLsbD_eq
    intro j hj
    have hbit : (w &&& (BitVec.allOnes n).setWidth 32 <<< k).getLsbD (k + j) = false := by simp [hw]
    have hkj : k + j < 32 := by omega
    simpa [hj, hkj, (Nat.le_add_left j k).trans_lt hkj] using hbit
  · intro hw
    apply BitVec.eq_of_getLsbD_eq
    intro j hj
    by_cases hfield : k ≤ j ∧ j - k < n
    · have hbit : (w.extractLsb' k n).getLsbD (j - k) = false := by simp [hw]
      rw [BitVec.getLsbD_extractLsb', Nat.add_sub_of_le hfield.1, decide_eq_true hfield.2, Bool.true_and] at hbit
      rw [BitVec.getLsbD_and, hbit, Bool.false_and, BitVec.getLsbD_zero]
    · simp only [not_and, not_lt] at hfield
      simp +contextual [hfield, hj]

theorem reserved_z_iff {w : Cmd} : w &&& Format.z.reserved = 0#32 ↔ w.extractLsb' 0 26 = 0#26 :=
  and_mask_eq_zero_iff 0 26 (by decide)

theorem reserved_r2_iff {w : Cmd} : w &&& Format.r2.reserved = 0#32 ↔ w.extractLsb' 0 16 = 0#16 :=
  and_mask_eq_zero_iff 0 16 (by decide)

theorem reserved_r3_iff {w : Cmd} : w &&& Format.r3.reserved = 0#32 ↔ w.extractLsb' 0 11 = 0#11 :=
  and_mask_eq_zero_iff 0 11 (by decide)

theorem reserved_r4_iff {w : Cmd} : w &&& Format.r4.reserved = 0#32 ↔ w.extractLsb' 0 6 = 0#6 :=
  and_mask_eq_zero_iff 0 6 (by decide)

theorem reserved_i8_iff {w : Cmd} : w &&& Format.i8.reserved = 0#32 ↔ w.extractLsb' 8 13 = 0#13 :=
  and_mask_eq_zero_iff 8 13 (by decide)

theorem reserved_cRead_iff {w : Cmd} : w &&& Format.cRead.reserved = 0#32 ↔ w.extractLsb' 0 16 = 0#16 :=
  and_mask_eq_zero_iff 0 16 (by decide)

/-- The bits of `rd` and bits [15:9] (30_encoding.md R72). -/
theorem reserved_cWrite_iff {w : Cmd} :
    w &&& Format.cWrite.reserved = 0#32 ↔ w.extractLsb' 21 5 = 0#5 ∧ w.extractLsb' 9 7 = 0#7 := by
  have hsplit : Format.cWrite.reserved
      = (BitVec.allOnes 5).setWidth 32 <<< 21 ||| (BitVec.allOnes 7).setWidth 32 <<< 9 := rfl
  rw [hsplit, BitVec.and_or_distrib_left, BitVec.or_eq_zero_iff, and_mask_eq_zero_iff 21 5 (by decide),
    and_mask_eq_zero_iff 9 7 (by decide)]

/-! ### The word of each format by its fields

Laws/Encoding.lean reads the opcode and the must-be-zero bits off an encoded word; the equivalences below add the other
fields and the converse, that a word with these fields is that encoded word (30_encoding.md R72). -/

/-- The value of the `n` bits from bit `k` on. -/
theorem toNat_bits (w : Cmd) (k n : Nat) : (w.extractLsb' k n).toNat = w.toNat / 2 ^ k % 2 ^ n := by
  rw [BitVec.extractLsb'_toNat, Nat.shiftRight_eq_div_pow]

theorem encodeZ_eq_iff {o : Op} {w : Cmd} :
    encodeZ o = w ↔ opField w = o.code ∧ w &&& Format.z.reserved = 0#32 := by
  rw [reserved_z_iff]
  simp only [encodeZ, opField, ← BitVec.toNat_inj, toNat_append_eq_add, toNat_bits, BitVec.toNat_ofNat]
  omega

theorem encodeR2_eq_iff {o : Op} {rd ra : Reg} {w : Cmd} :
    encodeR2 o rd ra = w ↔ opField w = o.code ∧ w &&& Format.r2.reserved = 0#32 ∧
      rdField w = rd.field ∧ raField w = ra.field := by
  rw [reserved_r2_iff]
  simp only [encodeR2, opField, rdField, raField, ← BitVec.toNat_inj, toNat_append_eq_add, toNat_bits,
    BitVec.toNat_ofNat]
  omega

theorem encodeR3_eq_iff {o : Op} {rd ra rb : Reg} {w : Cmd} :
    encodeR3 o rd ra rb = w ↔ opField w = o.code ∧ w &&& Format.r3.reserved = 0#32 ∧
      rdField w = rd.field ∧ raField w = ra.field ∧ rbField w = rb.field := by
  rw [reserved_r3_iff]
  simp only [encodeR3, opField, rdField, raField, rbField, ← BitVec.toNat_inj, toNat_append_eq_add, toNat_bits,
    BitVec.toNat_ofNat]
  omega

theorem encodeR4_eq_iff {o : Op} {rd ra rb rc : Reg} {w : Cmd} :
    encodeR4 o rd ra rb rc = w ↔ opField w = o.code ∧ w &&& Format.r4.reserved = 0#32 ∧
      rdField w = rd.field ∧ raField w = ra.field ∧ rbField w = rb.field ∧ rcField w = rc.field := by
  rw [reserved_r4_iff]
  simp only [encodeR4, opField, rdField, raField, rbField, rcField, ← BitVec.toNat_inj, toNat_append_eq_add,
    toNat_bits, BitVec.toNat_ofNat]
  omega

theorem encodeI8_eq_iff {o : Op} {rd : Reg} {imm8 : Byte} {w : Cmd} :
    encodeI8 o rd imm8 = w ↔ opField w = o.code ∧ w &&& Format.i8.reserved = 0#32 ∧
      rdField w = rd.field ∧ imm8Field w = imm8 := by
  rw [reserved_i8_iff]
  simp only [encodeI8, opField, rdField, imm8Field, ← BitVec.toNat_inj, toNat_append_eq_add, toNat_bits,
    BitVec.toNat_ofNat]
  omega

theorem encodeCRead_eq_iff {o : Op} {rd : Reg} {c : Csr} {w : Cmd} :
    encodeCRead o rd c = w ↔ opField w = o.code ∧ w &&& Format.cRead.reserved = 0#32 ∧
      rdField w = rd.field ∧ raField w = c.number := by
  rw [reserved_cRead_iff]
  simp only [encodeCRead, opField, rdField, raField, ← BitVec.toNat_inj, toNat_append_eq_add, toNat_bits,
    BitVec.toNat_ofNat]
  omega

theorem encodeCWrite_eq_iff {o : Op} {c : Csr} {imm9 : BitVec 9} {w : Cmd} :
    encodeCWrite o c imm9 = w ↔ opField w = o.code ∧ w &&& Format.cWrite.reserved = 0#32 ∧
      raField w = c.number ∧ imm9Field w = imm9 := by
  rw [reserved_cWrite_iff]
  simp only [encodeCWrite, opField, raField, imm9Field, ← BitVec.toNat_inj, toNat_append_eq_add, toNat_bits,
    BitVec.toNat_ofNat]
  omega

/-! ### The decoder's checks -/

theorem Reg.ofField_eq_iff {f : BitVec 5} {r : Reg} : Reg.ofField f = r ↔ f = r.field :=
  ⟨fun h => h ▸ rfl, fun h => h ▸ rfl⟩

theorem Op.ofCode_eq_some_iff {c : BitVec 6} {o : Op} : Op.ofCode c = some o ↔ c = o.code :=
  ⟨fun h => (Op.code_of_ofCode h).symm, fun h => h ▸ Op.ofCode_code o⟩

theorem Op.ofCode_eq_none_iff {c : BitVec 6} : Op.ofCode c = none ↔ ∀ o : Op, c ≠ o.code := by
  simp only [Option.eq_none_iff_forall_ne_some, ne_eq, Op.ofCode_eq_some_iff]

theorem Csr.ofNumber_eq_some_iff {n : BitVec 5} {c : Csr} : Csr.ofNumber n = some c ↔ n = c.number :=
  ⟨fun h => (Csr.number_of_ofNumber h).symm, fun h => h ▸ Csr.ofNumber_number c⟩

theorem decodeRdc_eq_ok_iff {w : Cmd} {i : Instr} :
    decodeRdc w = .ok i ↔ ∃ c : Csr, raField w = c.number ∧ i = .rdc (Reg.ofField (rdField w)) c := by
  simp only [← Csr.ofNumber_eq_some_iff, decodeRdc]
  cases Csr.ofNumber (raField w) <;> simp [eq_comm]

theorem decodeWrc_eq_ok_iff {w : Cmd} {i : Instr} :
    decodeWrc w = .ok i ↔
      ∃ c : Csr, raField w = c.number ∧ i = .wrc c (imm9Field w) ∧
        (Instr.wrc c (imm9Field w)).wellFormed = true := by
  simp only [← Csr.ofNumber_eq_some_iff, decodeWrc, Instr.wellFormed, Bool.and_eq_true, decide_eq_true_eq]
  cases Csr.ofNumber (raField w) with
  | none => simp
  | some c =>
    simp only [Option.some.injEq, exists_eq_left']
    split_ifs with hcsr hval <;> simp [*, eq_comm (a := i)]

/-- The operands of an opcode's word make a command of that opcode. -/
theorem Op.op_of_operands {o : Op} {w : Cmd} {i : Instr} (h : o.operands w = .ok i) : i.op = o := by
  cases o with
  | rdc =>
    obtain ⟨c, -, rfl⟩ := decodeRdc_eq_ok_iff.1 h
    rfl
  | wrc =>
    obtain ⟨c, -, rfl, -⟩ := decodeWrc_eq_ok_iff.1 h
    rfl
  | _ => cases h; rfl

theorem decode_of_unassigned {w : Cmd} (h : ∀ o : Op, opField w ≠ o.code) : decode w = .error .illegalOpcode := by
  rw [decode, Op.ofCode_eq_none_iff.2 h]

theorem decode_of_opcode {w : Cmd} {o : Op} (h : opField w = o.code) :
    decode w = if w &&& o.format.reserved = 0#32 then o.operands w else .error .reservedField := by
  rw [decode, Op.ofCode_eq_some_iff.2 h]

/-- The three conditions under which a word decodes to a command: its opcode, its must-be-zero bits, its operands. -/
theorem decode_eq_ok_iff {w : Cmd} {i : Instr} :
    decode w = .ok i ↔ opField w = i.op.code ∧ w &&& i.op.format.reserved = 0#32 ∧ i.op.operands w = .ok i := by
  constructor
  · intro h
    by_cases hop : ∃ o : Op, opField w = o.code
    · obtain ⟨o, ho⟩ := hop
      rw [decode_of_opcode ho] at h
      split_ifs at h with hres
      obtain rfl := Op.op_of_operands h
      exact ⟨ho, hres, h⟩
    · rw [decode_of_unassigned (not_exists.1 hop)] at h
      cases h
  · rintro ⟨hop, hres, hi⟩
    rw [decode_of_opcode hop, if_pos hres, hi]

/-! ### The round trips -/

/-- The word of a well-formed command is the one word with its opcode, clear must-be-zero bits and its operands: the
conditions of `decode_eq_ok_iff`, format by format. -/
theorem encode_eq_iff {i : Instr} (hwf : i.wellFormed = true) {w : Cmd} :
    encode i = w ↔ opField w = i.op.code ∧ w &&& i.op.format.reserved = 0#32 ∧ i.op.operands w = .ok i := by
  cases i with
  | nop | endRun | pack | unpack =>
    simp [encode, Instr.op, Op.format, Op.operands, encodeZ_eq_iff]
  | bcr | swapn | revb | popc | gath | posb =>
    simp [encode, Instr.op, Op.format, Op.operands, encodeR2_eq_iff, Reg.ofField_eq_iff]
  | eq | lt | gt | addw | subw | adds | subs | absd | min | max | avg =>
    simp [encode, Instr.op, Op.format, Op.operands, encodeR3_eq_iff, Reg.ofField_eq_iff]
  | sel => simp [encode, Instr.op, Op.format, Op.operands, encodeR4_eq_iff, Reg.ofField_eq_iff]
  | bci | ldl | stl => simp [encode, Instr.op, Op.format, Op.operands, encodeI8_eq_iff, Reg.ofField_eq_iff]
  | rdc rd c =>
    simp [encode, Instr.op, Op.format, Op.operands, encodeCRead_eq_iff, decodeRdc_eq_ok_iff,
      eq_comm (a := rd), Reg.ofField_eq_iff, and_comm]
  | wrc c imm9 =>
    have hoperands : Op.wrc.operands w = .ok (.wrc c imm9) ↔ raField w = c.number ∧ imm9Field w = imm9 := by
      refine decodeWrc_eq_ok_iff.trans ⟨?_, ?_⟩
      · rintro ⟨_, hnum, ⟨⟩, -⟩
        exact ⟨hnum, rfl⟩
      · rintro ⟨hnum, rfl⟩
        exact ⟨c, hnum, rfl, hwf⟩
    simp [encode, Instr.op, Op.format, encodeCWrite_eq_iff, hoperands]

/-- Decoding to a command and being the word of a well-formed command are one and the same. -/
theorem decode_eq_ok_iff_encode_eq {w : Cmd} {i : Instr} :
    decode w = .ok i ↔ encode i = w ∧ i.wellFormed = true :=
  ⟨fun h => ⟨(encode_eq_iff (decode_wellFormed h)).2 (decode_eq_ok_iff.1 h), decode_wellFormed h⟩,
    fun ⟨h, hwf⟩ => decode_eq_ok_iff.2 ((encode_eq_iff hwf).1 h)⟩

/-- Settles O1 (30_encoding.md R72, R73), at the command's own word. -/
theorem decodeInvertsEncode : Obligations.DecodeInvertsEncode :=
  fun _ hwf => decode_eq_ok_iff_encode_eq.2 ⟨rfl, hwf⟩

/-- Settles O2 (30_encoding.md R73, R77, R82). -/
theorem encodeInvertsDecode : Obligations.EncodeInvertsDecode :=
  fun _ _ => decode_eq_ok_iff_encode_eq.1

end Sys2Proof
end

section
/-! The decoder's checks in their order (30_encoding.md R73), the assigned opcodes and the rows of the opcode table
(R81, R83), the example words (R84), and the fault a rejected word takes. -/

namespace Sys2Proof.Machine

/-! ### Fault entry -/

/-- `raiseFault` is fault entry as 60_exceptions.md R195 lists it. -/
theorem faultsWith_raiseFault (c : Cause) (w : Cmd) (s : State) : FaultsWith c w s (raiseFault c w s) :=
  ⟨rfl, rfl, rfl, rfl, rfl, fun _ => rfl, fun _ => rfl, ⟨rfl, rfl, rfl⟩, rfl⟩

/-- The step over a rejected word is fault entry with the decoder's cause. -/
theorem step_faultsWith_of_decode_error {s : State} {w : Cmd} {c : Cause} (hrun : s.state = .run)
    (hfetch : s.prog[s.cp.toNat]? = some w) (hdec : decode w = .error c) :
    ∃ t, step s = .next t ∧ FaultsWith c w s t :=
  ⟨_, step_of_decode_error hrun hfetch hdec, faultsWith_raiseFault c w s⟩

end Sys2Proof.Machine

namespace Sys2Proof

open Machine

/-! ### Register numbers and values of `RDC` and `WRC` -/

/-- Numbers 7 to 31 name no register (10_state.md R36). -/
theorem Csr.ofNumber_eq_none_iff {n : BitVec 5} : Csr.ofNumber n = none ↔ 6 < n.toNat := by
  revert n
  decide

theorem Csr.writable_iff {c : Csr} : c.writable = true ↔ c.number.toNat ≤ 1 := by cases c <;> decide

theorem decodeRdc_of_illegal {w : Cmd} (h : 6 < (raField w).toNat) : decodeRdc w = .error .illegalCsr := by
  rw [decodeRdc, Csr.ofNumber_eq_none_iff.2 h]

theorem exists_decodeRdc {w : Cmd} (h : (raField w).toNat ≤ 6) : ∃ i, decodeRdc w = .ok i := by
  cases hc : Csr.ofNumber (raField w) with
  | none => exact absurd (Csr.ofNumber_eq_none_iff.1 hc) (not_lt.2 h)
  | some c => exact ⟨_, decodeRdc_eq_ok_iff.2 ⟨c, Csr.ofNumber_eq_some_iff.1 hc, rfl⟩⟩

theorem decodeWrc_of_number {w : Cmd} {c : Csr} (h : raField w = c.number) :
    decodeWrc w = if c.writable then
      if (imm9Field w).toNat ≤ c.maxWrite then .ok (.wrc c (imm9Field w)) else .error .csrRange
    else .error .illegalCsr := by
  rw [decodeWrc, h, Csr.ofNumber_number]

theorem decodeWrc_of_readOnly {w : Cmd} (h : 1 < (raField w).toNat) : decodeWrc w = .error .illegalCsr := by
  cases hc : Csr.ofNumber (raField w) with
  | none => rw [decodeWrc, hc]
  | some c =>
    have hnum := Csr.ofNumber_eq_some_iff.1 hc
    rw [decodeWrc_of_number hnum, if_neg]
    rw [Csr.writable_iff, ← hnum]
    exact not_le.2 h

/-- `WRC BLEN`: the one check left is the value's (30_encoding.md R73 step 4). -/
theorem decodeWrc_of_blen {w : Cmd} (h : (raField w).toNat = 0) :
    decodeWrc w = if (imm9Field w).toNat ≤ 263 then .ok (.wrc .blen (imm9Field w)) else .error .csrRange :=
  decodeWrc_of_number (c := .blen) (BitVec.eq_of_toNat_eq h)

/-- `WRC LCNT`: the one check left is the value's (30_encoding.md R73 step 4). -/
theorem decodeWrc_of_lcnt {w : Cmd} (h : (raField w).toNat = 1) :
    decodeWrc w = if (imm9Field w).toNat ≤ 32 then .ok (.wrc .lcnt (imm9Field w)) else .error .csrRange :=
  decodeWrc_of_number (c := .lcnt) (BitVec.eq_of_toNat_eq h)

/-- Steps 3 and 4 of R73 reject words of `RDC` and `WRC` only. -/
theorem Op.exists_operands {o : Op} {w : Cmd} (hrdc : o = .rdc → (raField w).toNat ≤ 6)
    (hwrc : o = .wrc → (raField w).toNat = 0 ∧ (imm9Field w).toNat ≤ 263
      ∨ (raField w).toNat = 1 ∧ (imm9Field w).toNat ≤ 32) : ∃ i, o.operands w = .ok i := by
  cases o with
  | rdc => exact exists_decodeRdc (hrdc rfl)
  | wrc =>
    obtain ⟨hnum, hval⟩ | ⟨hnum, hval⟩ := hwrc rfl
    · exact ⟨_, (decodeWrc_of_blen hnum).trans (if_pos hval)⟩
    · exact ⟨_, (decodeWrc_of_lcnt hnum).trans (if_pos hval)⟩
  | _ => exact ⟨_, rfl⟩

/-- Settles O3 (30_encoding.md R73). -/
theorem decodeChecksInOrder : Obligations.DecodeChecksInOrder := by
  intro w
  refine ⟨decode_of_unassigned, fun o hop => ⟨fun hres => ?reserved, fun hres => ?operands⟩,
    fun s hrun hfetch => ?step⟩
  case reserved => rw [decode_of_opcode hop, if_neg hres]
  case operands =>
    rw [decode_of_opcode hop, if_pos hres]
    refine ⟨?rdcNumber, ?wrcNumber, ?blenRange, ?lcntRange, fun hrdc hwrc => ?legal⟩
    case rdcNumber =>
      rintro rfl h
      exact decodeRdc_of_illegal h
    case wrcNumber =>
      rintro rfl h
      exact decodeWrc_of_readOnly h
    case blenRange =>
      rintro rfl hnum hval
      exact (decodeWrc_of_blen hnum).trans (if_neg (not_le.2 hval))
    case lcntRange =>
      rintro rfl hnum hval
      exact (decodeWrc_of_lcnt hnum).trans (if_neg (not_le.2 hval))
    case legal =>
      obtain ⟨i, hi⟩ := Op.exists_operands hrdc hwrc
      exact ⟨i, hi, Op.op_of_operands hi⟩
  case step =>
    exact ⟨fun c => step_faultsWith_of_decode_error hrun hfetch, fun i => step_of_decode_ok hrun hfetch⟩

/-! ### Assigned opcodes and table rows -/

theorem decodeWrc_ne_illegalOpcode (w : Cmd) : decodeWrc w ≠ .error .illegalOpcode := by
  unfold decodeWrc
  split
  · split_ifs <;> nofun
  · nofun

/-- `ILLEGAL_OPCODE` is the cause of the first check only. -/
theorem Op.operands_ne_illegalOpcode (o : Op) (w : Cmd) : o.operands w ≠ .error .illegalOpcode := by
  cases o with
  | rdc =>
    simp only [Op.operands, decodeRdc]
    split <;> nofun
  | wrc => exact decodeWrc_ne_illegalOpcode w
  | _ => nofun

theorem decode_eq_illegalOpcode_iff {w : Cmd} :
    decode w = .error .illegalOpcode ↔ ∀ o : Op, opField w ≠ o.code := by
  refine ⟨fun h o hop => ?_, decode_of_unassigned⟩
  rw [decode_of_opcode hop] at h
  split_ifs at h
  · exact o.operands_ne_illegalOpcode w h
  · cases h

/-- The 37 unassigned values of `op` (30_encoding.md R81). -/
theorem Op.ofCode_eq_none_iff_mem {c : BitVec 6} : Op.ofCode c = none ↔
    c.toNat ∈ [0x00, 0x05, 0x06, 0x07, 0x0E, 0x0F, 0x13, 0x14, 0x15, 0x16, 0x17]
      ++ [0x23, 0x24, 0x25, 0x26, 0x27, 0x29, 0x2A, 0x2B, 0x2C, 0x2D, 0x2E, 0x2F]
      ++ [0x32, 0x33, 0x34, 0x35, 0x36, 0x37, 0x38, 0x39, 0x3A, 0x3B, 0x3C, 0x3D, 0x3E, 0x3F] := by
  revert c
  decide

/-- The opcode field in place. -/
theorem and_opMask (w : Cmd) : w &&& 0xFC000000#32 = opField w ++ 0#26 := by
  apply BitVec.eq_of_getLsbD_eq
  intro k hk
  simp only [opField, BitVec.getLsbD_and, BitVec.getLsbD_append, BitVec.getLsbD_extractLsb']
  interval_cases k <;> simp

/-- A row's mask is the opcode's bits and the must-be-zero bits of its format, and its pattern lies in the former. -/
theorem Op.mask_and_pattern_fields (o : Op) :
    o.mask &&& 0xFC000000#32 = 0xFC000000#32 ∧ o.mask &&& o.format.reserved = o.format.reserved ∧
      o.pattern &&& 0xFC000000#32 = o.pattern ∧ o.pattern &&& o.format.reserved = 0#32 := by
  cases o <;> decide

theorem and_opMask_eq_pattern_iff {w : Cmd} {o : Op} : w &&& 0xFC000000#32 = o.pattern ↔ opField w = o.code := by
  rw [and_opMask, Op.pattern]
  simp only [← BitVec.toNat_inj, toNat_append_eq_add]
  omega

/-- A word matches a row exactly when it passes the first two checks of R73 for it (30_encoding.md R83). -/
theorem and_mask_eq_pattern_iff {w : Cmd} {o : Op} :
    w &&& o.mask = o.pattern ↔ opField w = o.code ∧ w &&& o.format.reserved = 0#32 := by
  obtain ⟨hmaskOp, hmaskRes, hpatOp, hpatRes⟩ := o.mask_and_pattern_fields
  rw [← and_opMask_eq_pattern_iff]
  constructor
  · intro h
    constructor
    · rw [← hmaskOp, ← BitVec.and_assoc, h, hpatOp]
    · rw [← hmaskRes, ← BitVec.and_assoc, h, hpatRes]
  · rintro ⟨hop, hres⟩
    rw [Op.mask, BitVec.and_or_distrib_left, hop, hres, BitVec.or_zero]

/-- Settles O4 (30_encoding.md R81, R83). -/
theorem unassignedOpcodesAndTableRows : Obligations.UnassignedOpcodesAndTableRows := by
  refine ⟨fun w => ?_, rfl, rfl, fun s w => step_faultsWith_of_decode_error, rfl,
    fun w o => and_mask_eq_pattern_iff, fun w hrow => ?_⟩
  · rw [decode_eq_illegalOpcode_iff, ← Op.ofCode_eq_none_iff, Op.ofCode_eq_none_iff_mem]
  · by_cases hop : ∃ o : Op, opField w = o.code
    · obtain ⟨o, ho⟩ := hop
      have hres : w &&& o.format.reserved ≠ 0#32 := fun hres => hrow o (and_mask_eq_pattern_iff.2 ⟨ho, hres⟩)
      exact .inr ⟨by rw [decode_of_opcode ho, if_neg hres], o, ho⟩
    · exact .inl ⟨decode_of_unassigned (not_exists.1 hop), not_exists.1 hop⟩

/-- Settles O5 (30_encoding.md R84), by evaluation of the decoder. -/
theorem exampleWordsDecode : Obligations.ExampleWordsDecode :=
  ⟨rfl, rfl, rfl, rfl, rfl, rfl, rfl, rfl, rfl⟩

end Sys2Proof
end

section
/-! The command pointer (30_encoding.md R74) and the pseudo-instructions (R85). -/

namespace Sys2Proof.Machine

/-! ### The command pointer -/

theorem ExecEffect.cp_eq {s t : State} {i : Instr} (he : ExecEffect s i t) :
    t.cp = if i = .endRun then s.cp else s.cp + 1#16 := by
  cases he with
  | writesReg hi => rw [if_neg hi]; rfl
  | _ => rfl

/-- A step that ends in `FAULT` took a fault: no command enters `FAULT`. -/
theorem step_fault_cases {s t : State} (h : step s = .next t) (hfault : t.state = .fault) :
    ∃ c w, t = raiseFault c w s := by
  obtain ⟨hrun, ⟨-, rfl⟩ | ⟨w, c, -, -, rfl⟩ | ⟨w, i, -, hdec, hexec⟩⟩ := step_cases h
  · exact ⟨_, _, rfl⟩
  · exact ⟨_, _, rfl⟩
  · obtain ⟨-, -, -, -, -, hstate⟩ := controlRegistersHaveTheirWriters i s t (decode_wellFormed hdec) hexec
    obtain ⟨-, hdone⟩ := hstate (by simp [hrun, hfault])
    cases hfault.symm.trans hdone

/-- Settles O14 (30_encoding.md R74). -/
theorem commandPointerAdvance : Obligations.CommandPointerAdvance := by
  refine ⟨fun i s t hwf hexec => (exec_effect hwf hexec).cp_eq, fun s t h hfault => ?_⟩
  obtain ⟨c, w, rfl⟩ := step_fault_cases h hfault
  obtain ⟨-, -, -, -, hcp, hregs, hbuf, hlengths, -⟩ := faultsWith_raiseFault c w s
  exact ⟨hcp, hregs, hbuf, hlengths⟩

/-! ### Assembler lines -/

theorem asImm8_toNat (b : Byte) : asImm8 b.toNat = some b := by simp [asImm8, b.isLt]

theorem asImm9_toNat (v : BitVec 9) : asImm9 v.toNat = some v := by simp [asImm9, v.isLt]

/-- A command's line assembles to the command (30_encoding.md R84). -/
theorem assemble_asm (i : Instr) : assemble i.asm = some i := by
  cases i with
  | bci | ldl | stl => simp [Instr.asm, Instr.asmOperands, Instr.op, assemble, asImm8_toNat]
  | wrc => simp [Instr.asm, Instr.asmOperands, Instr.op, assemble, asImm9_toNat]
  | _ => rfl

/-! ### Pseudo-instructions -/

theorem fMax_self (a : Word) : fMax a a = a := word_ext fun i => by rw [lane_fMax, laneMax, ite_self]

/-- Settles O6 (30_encoding.md R85): a register is its own maximum, and the broadcasts of 0x00 and 0xFF evaluate to the
two constant words. -/
theorem pseudoInstructionsExpand : Obligations.PseudoInstructionsExpand := by
  refine ⟨assemble_asm, fun _ _ => rfl, fun _ => rfl, fun _ => rfl, fun rd ra s => ?mov, fun rd s => ?zero,
    fun rd s => ?ones⟩
  case mov =>
    have hmax : CompletesWith (.mov rd ra) rd (fMax (s.reg ra) (s.reg ra)) s := completesWith_of_setReg rfl
    rwa [fMax_self] at hmax
  case zero => exact completesWith_of_setReg (v := fBroadcast 0x00#8) rfl
  case ones => exact completesWith_of_setReg (v := fBroadcast 0xFF#8) rfl

end Sys2Proof.Machine
end

section
/-! Words of the formats Z, R2 and I8 (30_encoding.md R72, R73): the terms of the statements on commands, from the
encoder's words and the decoder's second check. -/

namespace Sys2Proof

open Machine

theorem Reg.ofNat_val_eq_field (r : Reg) : BitVec.ofNat 5 r.val = r.field :=
  BitVec.eq_of_toNat_eq (Nat.mod_eq_of_lt r.isLt)

theorem rejectsReserved_of_op (o : Op) : RejectsReserved o.code o.format.reserved :=
  fun w hop hres => by rw [decode_of_opcode hop, if_neg hres]

theorem hasFormatZ_of_encode {o : Op} {i : Instr} (hfmt : o.format = .z)
    (henc : encode i = encodeZ o ∧ i.wellFormed = true) : HasFormatZ o.code i := by
  have hreserved := hfmt ▸ rejectsReserved_of_op o
  exact ⟨decode_eq_ok_iff_encode_eq.2 henc, hreserved⟩

theorem hasFormatR2_of_encode {o : Op} {mk : Reg → Reg → Instr} (hfmt : o.format = .r2)
    (henc : ∀ rd ra, encode (mk rd ra) = encodeR2 o rd ra ∧ (mk rd ra).wellFormed = true) :
    HasFormatR2 o.code mk := by
  have hreserved := hfmt ▸ rejectsReserved_of_op o
  refine ⟨fun rd ra => ?_, hreserved⟩
  rw [Reg.ofNat_val_eq_field, Reg.ofNat_val_eq_field]
  exact decode_eq_ok_iff_encode_eq.2 (henc rd ra)

theorem hasFormatI8_of_encode {o : Op} {mk : Reg → Byte → Instr} (hfmt : o.format = .i8)
    (henc : ∀ rd imm8, encode (mk rd imm8) = encodeI8 o rd imm8 ∧ (mk rd imm8).wellFormed = true) :
    HasFormatI8 o.code mk := by
  have hreserved := hfmt ▸ rejectsReserved_of_op o
  refine ⟨fun rd imm8 => ?_, hreserved⟩
  rw [Reg.ofNat_val_eq_field]
  exact decode_eq_ok_iff_encode_eq.2 (henc rd imm8)

end Sys2Proof
end

section
/-! The lane codec on sequences (40_codec.md R101, R103, R108, R110, R112) and broadcast (R105). -/

namespace Sys2Proof.Machine

/-! ### Groups of eight bytes -/

theorem laneToBytes_bytesToLane (bs : Vector Byte 8) : laneToBytes (bytesToLane bs) = bs := by
  ext i hi
  rw [getElem_laneToBytes, lane_bytesToLane]

theorem bytesToLane_laneToBytes (w : Word) : bytesToLane (laneToBytes w) = w :=
  word_ext fun i => by rw [lane_bytesToLane, getElem_laneToBytes]

/-- Settles O27 (40_codec.md R108, R110). -/
theorem bytesAndLanesConvert : Obligations.BytesAndLanesConvert :=
  ⟨lane_bytesToLane, fun bs => toNat_mkword fun j => bs[j.val], fun w j => getElem_laneToBytes w j.val j.isLt,
    laneToBytes_bytesToLane, bytesToLane_laneToBytes⟩

/-! ### Broadcast -/

theorem toNat_lowBits : Config.lowBits.toNat = 0x0101010101010101 := rfl

/-- The product of a byte with `LOWBITS` fits a word. -/
theorem toNat_mul_lowBits_lt (b : Byte) : b.toNat * Config.lowBits.toNat < 2 ^ 64 := by
  rw [toNat_lowBits]
  omega

/-- `LOWBITS` is the sum of the lanes' weights, so the product with it is the sum of the byte at every weight. -/
theorem fBroadcast_eq_formula (b : Byte) : fBroadcast b = broadcastFormula b := by
  apply BitVec.eq_of_toNat_eq
  rw [fBroadcast, toNat_mkword, ← Fin.sum_univ_def, Fin.sum_univ_eight, broadcastFormula, BitVec.toNat_mul,
    BitVec.toNat_setWidth_of_le (by decide), Nat.mod_eq_of_lt (toNat_mul_lowBits_lt b), toNat_lowBits]
  simp only [Fin.coe_ofNat_eq_mod, Nat.reduceMod]
  omega

/-- Settles O28 (40_codec.md R105). -/
theorem broadcastFillsEveryLane : Obligations.BroadcastFillsEveryLane :=
  ⟨lane_fBroadcast, fBroadcast_eq_formula, toNat_mul_lowBits_lt, rfl, rfl, rfl, rfl⟩

/-! ### Byte sequences and sequences of words -/

/-- The relation between the two sides of the codec: byte `8i + j` of the sequence is lane `j` of word `i` of the words
(40_codec.md R101, R103). Bytes past the last word are not looked at. -/
def HoldsLanes (bs : List Byte) (ws : List Word) : Prop :=
  ∀ (i : Nat) (w : Word) (j : Fin 8), ws[i]? = some w → bs[8 * i + j.val]? = some (lane w j)

theorem length_fPack (bs : List Byte) : (fPack bs).1.length = bs.length / 8 := by simp [fPack]

theorem snd_fPack (bs : List Byte) : (fPack bs).2 = 8 * (fPack bs).1.length := by simp [fPack]

theorem holdsLanes_fPack (bs : List Byte) : HoldsLanes bs (fPack bs).1 := by
  intro i w j hw
  obtain ⟨hi, rfl⟩ := List.getElem?_eq_some_iff.1 hw
  rw [length_fPack] at hi
  have hlt : 8 * i + j.val < bs.length := by omega
  simp [fPack, hlt]

theorem fUnpack_cons (w : Word) (ws : List Word) : fUnpack (w :: ws) = (laneToBytes w).toList ++ fUnpack ws := rfl

/-- By induction on the words: the first word's lanes are the first eight bytes, the others' come eight later. -/
theorem holdsLanes_fUnpack (ws : List Word) : HoldsLanes (fUnpack ws) ws := by
  induction ws with
  | nil => nofun
  | cons w rest ih =>
    rintro (_ | i) v j hv
    · obtain rfl : w = v := by simpa using hv
      rw [fUnpack_cons, List.getElem?_append_left (by simp)]
      simp
    · have hlen : (laneToBytes w).toList.length = 8 := by simp
      have hidx : 8 * (i + 1) + j.val - 8 = 8 * i + j.val := by omega
      rw [fUnpack_cons, List.getElem?_append_right (by omega), hlen, hidx]
      exact ih i v j (by simpa using hv)

/-- The words lie within the bytes: the last lane of the last word has its byte. -/
theorem HoldsLanes.length_le {bs : List Byte} {ws : List Word} (h : HoldsLanes bs ws) : 8 * ws.length ≤ bs.length := by
  cases hn : ws.length with
  | zero => exact Nat.zero_le _
  | succ n =>
    have hlast := h n ws[n] 7 (List.getElem?_eq_getElem (by omega))
    obtain ⟨hlt, -⟩ := List.getElem?_eq_some_iff.1 hlast
    exact hlt

/-- `F_unpack` writes the words' bytes out and nothing else: position `k` is lane `k mod 8` of word `k / 8`. -/
theorem HoldsLanes.fUnpack_eq {bs : List Byte} {ws : List Word} (h : HoldsLanes bs ws) :
    fUnpack ws = bs.take (8 * ws.length) := by
  apply List.ext_getElem?
  intro k
  by_cases hk : k < 8 * ws.length
  · have hw : ws[k / 8]? = some ws[k / 8] := List.getElem?_eq_getElem (by omega)
    have hunpacked := holdsLanes_fUnpack ws _ _ ⟨k % 8, by omega⟩ hw
    have hgiven := h _ _ ⟨k % 8, by omega⟩ hw
    rw [Nat.div_add_mod] at hunpacked hgiven
    rw [List.getElem?_take_of_lt hk, hunpacked, hgiven]
  · rw [List.getElem?_eq_none (by rw [length_fUnpack]; omega),
      List.getElem?_eq_none ((List.length_take_le _ _).trans (not_lt.1 hk))]

/-- `F_pack` finds the words again when fewer than eight bytes are left over: a word is its lanes. -/
theorem HoldsLanes.fPack_eq {bs : List Byte} {ws : List Word} (h : HoldsLanes bs ws)
    (hrest : bs.length < 8 * ws.length + 8) : fPack bs = (ws, 8 * ws.length) := by
  have hlen : (fPack bs).1.length = ws.length := by
    have := h.length_le
    rw [length_fPack]
    omega
  have hwords : (fPack bs).1 = ws := by
    apply List.ext_getElem hlen
    intro i hi hi'
    refine word_ext fun j => Option.some.inj ?_
    rw [← holdsLanes_fPack bs i _ j (List.getElem?_eq_getElem hi), ← h i _ j (List.getElem?_eq_getElem hi')]
  exact Prod.ext hwords ((snd_fPack bs).trans (by rw [hlen]))

theorem fUnpack_fPack (bs : List Byte) : fUnpack (fPack bs).1 = bs.take (fPack bs).2 := by
  rw [(holdsLanes_fPack bs).fUnpack_eq, snd_fPack]

theorem fPack_fUnpack (ws : List Word) : fPack (fUnpack ws) = (ws, 8 * ws.length) :=
  (holdsLanes_fUnpack ws).fPack_eq (by rw [length_fUnpack]; omega)

/-- `F_pack` does not look at the remainder: the bytes it covers are its words unpacked. -/
theorem fPack_take_consumed (bs : List Byte) : fPack (bs.take (fPack bs).2) = fPack bs := by
  rw [← fUnpack_fPack, fPack_fUnpack, ← snd_fPack]

/-- Settles O29 (40_codec.md R101, R103), by `HoldsLanes` between a sequence and its words. -/
theorem packAndUnpackSequences : Obligations.PackAndUnpackSequences := by
  refine ⟨fun bs => ⟨length_fPack bs, ?consumed⟩, fun bs i j hi => ?lanes, fPack_take_consumed, fun bs hshort => ?short,
    length_fUnpack, fun ws i w j => holdsLanes_fUnpack ws i w j, rfl⟩
  case consumed => rw [snd_fPack, length_fPack]
  case lanes =>
    rw [← length_fPack] at hi
    have hw := List.getElem?_eq_getElem hi
    exact ⟨_, _, hw, holdsLanes_fPack bs i _ j hw, rfl⟩
  case short =>
    have hnil : HoldsLanes bs [] := nofun
    exact hnil.fPack_eq hshort

end Sys2Proof.Machine
end

section
/-! The block commands `PACK` and `UNPACK` (40_codec.md R102, R104, R112). -/

namespace Sys2Proof.Machine

/-! ### Registers and buffer bytes as sequences -/

theorem getElem?_readBytes (m : Memory) (addr : Nat) {n k : Nat} (hk : k < n) :
    (m.readBytes addr n)[k]? = some (m.read (addr + k)) := by
  simp [Memory.readBytes, hk]

theorem length_readBytes (m : Memory) (addr n : Nat) : (m.readBytes addr n).length = n := by
  simp [Memory.readBytes]

theorem getElem?_firstRegs {s : State} {n i : Nat} {w : Word} :
    (firstRegs s n)[i]? = some w ↔ ∃ r : Reg, r.val = i ∧ r.val < n ∧ s.reg r = w := by
  constructor
  · intro h
    obtain ⟨hi, rfl⟩ := List.getElem?_eq_some_iff.1 h
    have hlt : i < n ∧ i < 32 := by simpa [firstRegs] using hi
    exact ⟨⟨i, hlt.2⟩, rfl, hlt.1, by simp [firstRegs, State.reg]⟩
  · rintro ⟨r, rfl, hr, rfl⟩
    simp [firstRegs, hr, State.reg]

theorem holdsLanes_firstRegs_iff {bs : List Byte} {s : State} {n : Nat} : HoldsLanes bs (firstRegs s n) ↔
    ∀ (r : Reg) (j : Fin 8), r.val < n → bs[8 * r.val + j.val]? = some (lane (s.reg r) j) := by
  constructor
  · intro h r j hr
    exact h r.val _ j (getElem?_firstRegs.2 ⟨r, rfl, hr, rfl⟩)
  · intro h i w j hw
    obtain ⟨r, rfl, hr, rfl⟩ := getElem?_firstRegs.1 hw
    exact h r j hr

/-- The bytes of `BUF` from 0 on hold the lanes of the first registers when each byte is the lane it is packed into. -/
theorem holdsLanes_readBytes {m : Memory} {s : State} {n len : Nat} (hlen : 8 * n ≤ len)
    (h : ∀ (r : Reg) (j : Fin 8), r.val < n → lane (s.reg r) j = m.read (8 * r.val + j.val)) :
    HoldsLanes (m.readBytes 0 len) (firstRegs s n) := by
  refine holdsLanes_firstRegs_iff.2 fun r j hr => ?_
  rw [getElem?_readBytes m 0 (by omega), Nat.zero_add, h r j hr]

/-! ### PACK -/

/-- The three writes of `PACK`, at any values: the fields after them and the advance. -/
theorem retire_packWrites (s : State) (x : Vector Word 32) (lcnt : BitVec 6) (consumed : BitVec 9) :
    ∃ t, retire { s with x := x, lcnt := lcnt, consumed := consumed } = .next t ∧ t.x = x ∧ t.lcnt = lcnt ∧
      t.consumed = consumed ∧ t.blen = s.blen ∧ t.buf = s.buf ∧ Advances s t :=
  ⟨_, rfl, rfl, rfl, rfl, rfl, rfl, rfl, ⟨rfl, rfl, rfl⟩, rfl, rfl⟩

/-- `PACK` of a legal length by the fields of the state after it. -/
theorem exec_pack_fields {s : State} (hn : s.packCount ≤ Config.nReg) :
    ∃ t, exec .pack s = .next t ∧ t.x = packedRegs s s.packCount ∧ t.lcnt.toNat = s.packCount ∧
      t.consumed.toNat = 8 * s.packCount ∧ t.blen = s.blen ∧ t.buf = s.buf ∧ Advances s t := by
  obtain ⟨hlcnt, hconsumed⟩ := toNat_packLengths hn
  obtain ⟨t, hretire, hx, hl, hc, hrest⟩ := retire_packWrites s (packedRegs s s.packCount)
    (BitVec.ofNat 6 s.packCount) (BitVec.ofNat 9 (8 * s.packCount))
  rw [← hl] at hlcnt
  rw [← hc] at hconsumed
  exact ⟨t, (if_pos hn).trans hretire, hx, hlcnt, hconsumed, hrest⟩

/-- Settles O31 (40_codec.md R102). The registers after the loop hold the bytes of `BUF` as lanes, so they are the words
of `F_pack`; fewer than eight bytes of `BLEN` are left over. -/
theorem packCommand : Obligations.PackCommand := by
  refine ⟨hasFormatZ_of_encode (o := .pack) rfl ⟨rfl, rfl⟩, fun s hblen => ?_⟩
  have hn : s.packCount ≤ Config.nReg := packCount_le_nReg_iff.2 hblen
  obtain ⟨t, hexec, hx, hlcnt, hconsumed, hblen', hbuf, hadv⟩ := exec_pack_fields hn
  have hlanes : ∀ (r : Reg) (j : Fin 8), r.val < s.packCount →
      lane (t.reg r) j = s.readByte (8 * r.val + j.val) := by
    intro r j hr
    rw [State.reg, hx]
    exact lane_packedRegs s s.packCount r.val r.isLt hr j
  have hother : ∀ r : Reg, s.packCount ≤ r.val → t.reg r = s.reg r := by
    intro r hr
    rw [State.reg, hx, getElem_packedRegs, if_neg (not_lt.2 hr), State.reg]
  have hwords : (firstRegs t s.packCount).length = s.packCount := length_firstRegs t hn
  have hcount : 8 * s.packCount ≤ s.blen.toNat ∧ s.blen.toNat < 8 * s.packCount + 8 := by
    rw [State.packCount]
    omega
  have hpack : fPack (s.buf.readBytes 0 s.blen.toNat) = (firstRegs t t.lcnt.toNat, t.consumed.toNat) := by
    rw [hlcnt, hconsumed, (holdsLanes_readBytes hcount.1 hlanes).fPack_eq, hwords]
    rw [hwords, length_readBytes]
    exact hcount.2
  exact ⟨t, hexec, hlanes, hother, hlcnt, hconsumed, hblen', fun a => by rw [State.readByte, hbuf, State.readByte],
    hadv, hpack⟩

/-! ### UNPACK -/

/-- `UNPACK` of a legal count by the fields of the state after it. -/
theorem exec_unpack_fields {s : State} (hn : s.lcnt.toNat ≤ Config.nReg) :
    ∃ t, exec .unpack s = .next t ∧ t.x = s.x ∧ t.buf = s.buf.writeBytes 0 (fUnpack (firstRegs s s.lcnt.toNat)) ∧
      SameLengths s t ∧ Advances s t :=
  ⟨_, if_pos hn, rfl, rfl, ⟨rfl, rfl, rfl⟩, rfl, ⟨rfl, rfl, rfl⟩, rfl, rfl⟩

/-- The unpacked registers fit `BUF` (20_memory.md R51). -/
theorem length_fUnpack_firstRegs (s : State) {n : Nat} (hn : n ≤ Config.nReg) :
    (fUnpack (firstRegs s n)).length = 8 * n := by rw [length_fUnpack, length_firstRegs s hn]

/-- `BUF` after the first registers are unpacked into it: their lanes, then the bytes as before. -/
theorem read_writeBytes_fUnpack {m : Memory} (hwf : m.wf = true) (s : State) {n : Nat} (hn : n ≤ Config.nReg) :
    (∀ (r : Reg) (j : Fin 8), r.val < n →
      (m.writeBytes 0 (fUnpack (firstRegs s n))).read (8 * r.val + j.val) = lane (s.reg r) j) ∧
    ∀ a, 8 * n ≤ a → (m.writeBytes 0 (fUnpack (firstRegs s n))).read a = m.read a := by
  have hlen := length_fUnpack_firstRegs s hn
  have hcap : 0 + (fUnpack (firstRegs s n)).length ≤ Config.bufCap := by
    simp only [hlen, Config.nReg, Config.bufCap] at hn ⊢
    omega
  constructor
  · intro r j hr
    have hbyte := holdsLanes_firstRegs_iff.1 (holdsLanes_fUnpack (firstRegs s n)) r j hr
    rw [Memory.read_writeBytes hwf _ hcap, if_pos (by omega), Nat.sub_zero, List.getD_eq_getElem?_getD, hbyte,
      Option.getD_some]
  · intro a ha
    rw [Memory.read_writeBytes hwf _ hcap, if_neg (by omega)]

/-- Settles O32 (40_codec.md R104). `BUF` from 0 on holds the registers' lanes, so it reads as `F_unpack` of them. -/
theorem unpackCommand : Obligations.UnpackCommand := by
  refine ⟨hasFormatZ_of_encode (o := .unpack) rfl ⟨rfl, rfl⟩, fun s hwf hn => ?_⟩
  obtain ⟨t, hexec, hx, hbuf, hlengths, hadv⟩ := exec_unpack_fields hn
  obtain ⟨hlanes, hother⟩ := read_writeBytes_fUnpack hwf s hn
  rw [← hbuf] at hlanes hother
  have hunpacked : t.buf.readBytes 0 (8 * s.lcnt.toNat) = fUnpack (firstRegs s s.lcnt.toNat) := by
    have hholds := holdsLanes_readBytes le_rfl fun r j hr => (hlanes r j hr).symm
    rw [hholds.fUnpack_eq, length_firstRegs s hn, List.take_of_length_le (length_readBytes ..).le]
  exact ⟨t, hexec, hlanes, hother, hunpacked, fun r => by rw [State.reg, hx, State.reg], hlengths, hadv⟩

/-! ### PACK followed by UNPACK -/

/-- Settles O30 (40_codec.md R112). `UNPACK` writes into byte `8i + j` the lane that `PACK` filled from it. -/
theorem packUnpackRoundTrip : Obligations.PackUnpackRoundTrip := by
  refine ⟨fun bs => ?sequence, fPack_fUnpack, fun s hs => ?commands⟩
  case sequence => rw [fUnpack_fPack, List.take_append_drop]
  case commands =>
    obtain ⟨t, hpack, hpacked, -, hlcnt, -, -, hbufPack, -, -⟩ := packCommand.2 s hs.blen_le
    have ht : LegalData t := (exec_effect rfl hpack).legalData hs.legalData
    obtain ⟨u, hunpack, hunpacked, hrest, -⟩ := unpackCommand.2 t ht.buf_wf ht.lcnt_le
    have hu : LegalData u := (exec_effect rfl hunpack).legalData ht
    have hsame : SameBuf s u := by
      intro a
      by_cases ha : a < 8 * t.lcnt.toNat
      · have hlcnt_le : t.lcnt.toNat ≤ 32 := ht.lcnt_le
        have hreg : a / 8 < t.lcnt.toNat := by omega
        have hbyte := hunpacked ⟨a / 8, by omega⟩ ⟨a % 8, by omega⟩ hreg
        rw [hpacked _ _ (hlcnt ▸ hreg)] at hbyte
        simpa only [Nat.div_add_mod] using hbyte
      · rw [hrest a (not_lt.1 ha), hbufPack a]
    exact ⟨t, u, hpack, hunpack, Memory.ext_of_read hu.buf_wf hs.buf_wf hsame, hsame⟩

end Sys2Proof.Machine
end

section
/-! The commands that move one word: `STL`, `LDL`, `BCI` (40_codec.md R106, R109, R111) and the six of format R2 (R107,
43_bitops.md R151, R153, R155, 45_lookup.md R166, R169). -/

namespace Sys2Proof.Machine

/-- Settles O35 (40_codec.md R111). The group lies within `BUF` at every address an immediate names. -/
theorem storeLaneWord : Obligations.StoreLaneWord := by
  refine ⟨hasFormatI8_of_encode (o := .stl) rfl fun _ _ => ⟨rfl, rfl⟩, fun rs imm8 s hwf => ?_⟩
  have hfits := groupAddr_le imm8
  exact ⟨_, rfl, readByte_storeGroup_lane hwf hfits _, fun _ => readByte_storeGroup_outside hwf hfits _,
    wf_storeGroup hwf hfits _, fun _ => rfl, ⟨rfl, rfl, rfl⟩, rfl, ⟨rfl, rfl, rfl⟩, rfl, rfl⟩

/-- Settles O34 (40_codec.md R106, R109): both commands are one register write. -/
theorem broadcastImmediateAndLoad : Obligations.BroadcastImmediateAndLoad := by
  refine ⟨hasFormatI8_of_encode (o := .bci) rfl fun _ _ => ⟨rfl, rfl⟩,
    hasFormatI8_of_encode (o := .ldl) rfl fun _ _ => ⟨rfl, rfl⟩,
    fun _ _ _ => completesWith_of_setReg rfl, fun rd imm8 s => ?load, fun imm8 j => ⟨rfl, ?inBuf⟩⟩
  case load =>
    refine ⟨bytesToLane (s.buf.readGroup (groupAddr imm8)), fun j => ?_, completesWith_of_setReg rfl⟩
    rw [lane_bytesToLane, Memory.getElem_readGroup, State.readByte]
  case inBuf =>
    have hfits := groupAddr_le imm8
    simp only [Config.bufCap] at hfits
    omega

/-- The byte of a register is its bits [7:0] (40_codec.md R107). -/
theorem State.regByte_eq_setWidth (s : State) (r : Reg) : s.regByte r = (s.reg r).setWidth 8 :=
  BitVec.setWidth_eq_extractLsb' (by decide) |>.symm

/-- Settles O54 (40_codec.md R107, 43_bitops.md R151, R153, R155, 45_lookup.md R166, R169): each command is one register
write, `BCR` and `POSB` of a function of the register's byte. -/
theorem twoRegisterCommands : Obligations.TwoRegisterCommands := by
  refine ⟨⟨hasFormatR2_of_encode (o := .bcr) rfl fun _ _ => ⟨rfl, rfl⟩, fun rd ra s => ?bcr⟩,
    ⟨hasFormatR2_of_encode (o := .swapn) rfl fun _ _ => ⟨rfl, rfl⟩, fun _ _ _ => completesWith_of_setReg rfl⟩,
    ⟨hasFormatR2_of_encode (o := .revb) rfl fun _ _ => ⟨rfl, rfl⟩, fun _ _ _ => completesWith_of_setReg rfl⟩,
    ⟨hasFormatR2_of_encode (o := .popc) rfl fun _ _ => ⟨rfl, rfl⟩, fun _ _ _ => completesWith_of_setReg rfl⟩,
    ⟨hasFormatR2_of_encode (o := .gath) rfl fun _ _ => ⟨rfl, rfl⟩, fun _ _ _ => completesWith_of_setReg rfl⟩,
    ⟨hasFormatR2_of_encode (o := .posb) rfl fun _ _ => ⟨rfl, rfl⟩, fun rd ra s => ?posb⟩⟩
  case bcr =>
    simp only [← State.regByte_eq_setWidth]
    exact completesWith_of_setReg rfl
  case posb =>
    simp only [← State.regByte_eq_setWidth]
    exact completesWith_of_setReg rfl

end Sys2Proof.Machine
end

section
/-! Addition and subtraction of words whose lanes neither carry nor borrow: the 64-bit operation is then lane-wise. -/

namespace Sys2Proof.Machine

/-- The value of a word as the sum of its lanes at their weights (00_scope.md R10). -/
theorem toNat_eq_sum_lanes (w : Word) :
    w.toNat = ((List.finRange 8).map fun i => (lane w i).toNat * 2 ^ (8 * i.val)).sum := by
  rw [← toNat_mkword, mkword_lane]

/-- Where no lane's sum reaches 256, the sums at their weights add up to the sum of the words. -/
theorem map2_add_eq_add {a b : Word} (h : ∀ i, (lane a i).toNat + (lane b i).toNat < 256) :
    map2 (· + ·) a b = a + b := by
  have hsum : (map2 (· + ·) a b).toNat = a.toNat + b.toNat := by
    rw [toNat_eq_sum_lanes a, toNat_eq_sum_lanes b, ← List.sum_map_add, toNat_eq_sum_lanes]
    simp only [lane_map2, BitVec.toNat_add, Nat.mod_eq_of_lt (h _), Nat.add_mul]
  have hlt : a.toNat + b.toNat < 2 ^ 64 := hsum ▸ (map2 (· + ·) a b).isLt
  apply BitVec.eq_of_toNat_eq
  rw [hsum, BitVec.toNat_add, Nat.mod_eq_of_lt hlt]

theorem lane_add {a b : Word} (h : ∀ i, (lane a i).toNat + (lane b i).toNat < 256) (i : Fin 8) :
    lane (a + b) i = lane a i + lane b i := by
  rw [← map2_add_eq_add h, lane_map2]

/-- Adding the lanes of `b` back to the differences carries nowhere, so the word of the differences is `a - b`. -/
theorem lane_sub {a b : Word} (h : ∀ i, (lane b i).toNat ≤ (lane a i).toNat) (i : Fin 8) :
    lane (a - b) i = lane a i - lane b i := by
  have hback : map2 (· - ·) a b + b = a := by
    refine word_ext fun j => ?_
    rw [lane_add fun k => ?noCarry, lane_map2, BitVec.sub_add_cancel]
    rw [lane_map2, BitVec.toNat_sub_of_le (h k), Nat.sub_add_cancel (h k)]
    exact (lane a k).isLt
  rw [← BitVec.eq_sub_iff_add_eq.2 hback, lane_map2]

end Sys2Proof.Machine
end

section
/-! The comparators (41_comparator.md R120, R121, R123, R125): their word formulas lane by lane, their laws, and that
exactly one of the three holds in each lane. -/

namespace Sys2Proof.Machine

/-! ### Flag bytes -/

theorem flagByte_decide (p : Prop) [Decidable p] : flagByte (decide p) = if p then 0x80#8 else 0x00#8 := by
  simp only [flagByte, decide_eq_true_eq]

@[simp] theorem flagByte_false : flagByte false = 0x00#8 := rfl

@[simp] theorem flagByte_true : flagByte true = 0x80#8 := rfl

@[simp] theorem flagByte_eq_high_iff {p : Bool} : flagByte p = 0x80#8 ↔ p = true := by cases p <;> decide

/-- A high-bit flag word has no bit outside `HIGHBITS`. -/
theorem and_not_highBits_of_highBitFlag {w : Word} (h : highBitFlag w = true) : w &&& ~~~Config.highBits = 0#64 :=
  word_ext fun i => by
    rw [lane_and, lane_not, lane_highBits, lane_zero]
    obtain h | h := highBitFlag_iff.1 h i <;> rw [h] <;> rfl

/-- Masking with bit 7 leaves the flag byte of that bit. -/
theorem and_high_eq_flagByte (b : Byte) : b &&& 0x80#8 = flagByte b.msb := by decide +revert

/-! ### One lane of the word formulas -/

/-- The low seven bits of a byte. -/
theorem toNat_and_low (b : Byte) : (b &&& 0x7F#8).toNat = b.toNat % 128 :=
  Nat.and_two_pow_sub_one_eq_mod b.toNat 7

/-- A byte with bit 7 set. -/
theorem toNat_or_high (b : Byte) : (b ||| 0x80#8).toNat = b.toNat % 128 + 128 := by decide +revert

/-- Bit 7 of a byte weighs 128. -/
theorem msb_byte (b : Byte) : b.msb = decide (128 ≤ b.toNat) := BitVec.msb_eq_decide b

theorem toNat_low_add (b : Byte) : (b &&& 0x7F#8).toNat + (0x7F#8).toNat = b.toNat % 128 + 127 := by
  rw [toNat_and_low]
  rfl

/-- Adding 127 to the low seven bits reaches bit 7 exactly when one of them is set. -/
theorem msb_low_add (b : Byte) : ((b &&& 0x7F#8) + 0x7F#8).msb = decide (b.toNat % 128 ≠ 0) := by
  have hsum : ((b &&& 0x7F#8) + 0x7F#8).toNat = b.toNat % 128 + 127 := by
    rw [BitVec.toNat_add, toNat_low_add]
    omega
  rw [msb_byte, hsum, decide_eq_decide]
  omega

/-- A byte with bit 7 set is at least the low seven bits of any byte. -/
theorem toNat_low_le_high (a b : Byte) : (b &&& 0x7F#8).toNat ≤ (a ||| 0x80#8).toNat := by
  rw [toNat_and_low, toNat_or_high]
  omega

/-- Subtracting the low seven bits of `b` from those of `a` with bit 7 set keeps bit 7 exactly when nothing is
borrowed. -/
theorem msb_high_sub_low (a b : Byte) :
    ((a ||| 0x80#8) - (b &&& 0x7F#8)).msb = decide (b.toNat % 128 ≤ a.toNat % 128) := by
  rw [msb_byte, BitVec.toNat_sub_of_le (toNat_low_le_high a b), toNat_or_high, toNat_and_low,
    decide_eq_decide]
  omega

/-- Bytes are equal when they differ neither in bit 7 nor in a low bit. -/
theorem equal_byte_formula (a b : Byte) :
    ~~~((((a ^^^ b) &&& 0x7F#8) + 0x7F#8) ||| (a ^^^ b)) &&& 0x80#8 = flagByte (a == b) := by
  have hxor : (a == b) = decide ((a ^^^ b).toNat = 0) := by
    rw [Bool.eq_iff_iff, beq_iff_eq, decide_eq_true_iff, ← BitVec.xor_eq_zero_iff, ← BitVec.toNat_inj,
      BitVec.toNat_zero]
  generalize a ^^^ b = x at *
  rw [and_high_eq_flagByte, BitVec.msb_not, BitVec.msb_or, msb_low_add, msb_byte x, hxor]
  congr 1
  rw [Bool.eq_iff_iff]
  simp only [Nat.ofNat_pos, decide_true, ne_eq, decide_not, Bool.not_or, Bool.not_not, Bool.true_and,
    Bool.and_eq_true, decide_eq_true_eq, Bool.not_eq_eq_eq_not, Bool.not_true, decide_eq_false_iff_not, not_le]
  omega

/-- A byte is less when bit 7 alone says so, or when the two agree in bit 7 and the low seven bits borrow. -/
theorem less_byte_formula (a b : Byte) :
    ((~~~a &&& b) ||| (~~~(a ^^^ b) &&& ~~~((a ||| 0x80#8) - (b &&& 0x7F#8)))) &&& 0x80#8
      = flagByte (decide (a.toNat < b.toNat)) := by
  rw [and_high_eq_flagByte]
  simp only [BitVec.msb_or, BitVec.msb_and, BitVec.msb_not, BitVec.msb_xor, msb_high_sub_low]
  rw [msb_byte a, msb_byte b]
  congr 1
  rw [Bool.eq_iff_iff]
  simp only [Nat.ofNat_pos, decide_true, Bool.true_and, Bool.or_eq_true, Bool.and_eq_true, Bool.not_eq_eq_eq_not,
    Bool.not_true, decide_eq_false_iff_not, not_le, decide_eq_true_eq, bne_eq_false_iff_eq, decide_eq_decide]
  omega

/-! ### The word formulas -/

/-- The sum of the formula of R121 carries out of no lane. -/
theorem low7_add_low7_lt (x : Word) (i : Fin 8) :
    (lane (x &&& Config.low7) i).toNat + (lane Config.low7 i).toNat < 256 := by
  rw [lane_and, lane_low7, toNat_low_add]
  omega

/-- The difference of the formulas of R123 and R125 borrows out of no lane. -/
theorem low7_le_highBits (v c : Word) (i : Fin 8) :
    (lane (c &&& Config.low7) i).toNat ≤ (lane (v ||| Config.highBits) i).toNat := by
  rw [lane_and, lane_or, lane_low7, lane_highBits]
  exact toNat_low_le_high _ _

theorem fEqual_eq_formula (v c : Word) : fEqual v c = equalFormula v c :=
  word_ext fun i => by
    simp only [equalFormula, lane_and, lane_not, lane_or, lane_xor, lane_highBits, lane_low7,
      lane_add (low7_add_low7_lt _), equal_byte_formula, lane_fEqual]

theorem fLess_eq_formula (v c : Word) : fLess v c = lessFormula v c :=
  word_ext fun i => by
    simp only [lessFormula, lane_and, lane_not, lane_or, lane_xor, lane_highBits, lane_low7,
      lane_sub (low7_le_highBits v c), less_byte_formula, lane_fLess]

theorem fLess_eq_fGreater_swap (v c : Word) : fLess v c = fGreater c v := rfl

/-- Less and greater are mirror images, and so are their formulas. -/
theorem fGreater_eq_formula (v c : Word) : fGreater v c = greaterFormula v c := fLess_eq_formula c v

/-! ### Equal -/

theorem lane_fEqual_eq_ite (v c : Word) (i : Fin 8) :
    lane (fEqual v c) i = if lane v i = lane c i then 0x80#8 else 0x00#8 := by
  rw [lane_fEqual, beq_eq_decide, flagByte_decide]

theorem fEqual_comm (v c : Word) : fEqual v c = fEqual c v :=
  word_ext fun i => by rw [lane_fEqual, lane_fEqual, BEq.comm]

theorem fEqual_self (v : Word) : fEqual v v = Config.highBits :=
  word_ext fun i => by rw [lane_fEqual, lane_highBits, beq_self_eq_true, flagByte_true]

/-- Settles O37 (41_comparator.md R121). -/
theorem equalFunction : Obligations.EqualFunction := fun v c =>
  ⟨lane_fEqual_eq_ite v c, fEqual_eq_formula v c, fEqual_comm v c, fEqual_self v,
    fun a b i => by rw [lane_fEqual_eq_ite, lane_fBroadcast, lane_fBroadcast]⟩

/-! ### Less and greater -/

theorem lane_fLess_eq_ite (v c : Word) (i : Fin 8) :
    lane (fLess v c) i = if (lane v i).toNat < (lane c i).toNat then 0x80#8 else 0x00#8 := by
  rw [lane_fLess, flagByte_decide]

theorem lane_fGreater_eq_ite (v c : Word) (i : Fin 8) :
    lane (fGreater v c) i = if (lane c i).toNat < (lane v i).toNat then 0x80#8 else 0x00#8 :=
  lane_fLess_eq_ite c v i

theorem fLess_self (v : Word) : fLess v v = 0#64 :=
  word_ext fun i => by rw [lane_fLess_eq_ite, if_neg (lt_irrefl _), lane_zero]

/-- In every lane exactly one of equal, less and greater is flagged, because the order of bytes is total. -/
theorem lane_trichotomy (v c : Word) (i : Fin 8) :
    (lane (fEqual v c) i = 0x80#8 ∧ lane (fLess v c) i = 0x00#8 ∧ lane (fGreater v c) i = 0x00#8) ∨
    (lane (fEqual v c) i = 0x00#8 ∧ lane (fLess v c) i = 0x80#8 ∧ lane (fGreater v c) i = 0x00#8) ∨
    (lane (fEqual v c) i = 0x00#8 ∧ lane (fLess v c) i = 0x00#8 ∧ lane (fGreater v c) i = 0x80#8) := by
  rw [lane_fEqual_eq_ite, lane_fLess_eq_ite, lane_fGreater_eq_ite]
  obtain h | h | h := lt_trichotomy (lane v i).toNat (lane c i).toNat
  case inl => exact .inr (.inl ⟨if_neg (mt BitVec.toNat_inj.2 h.ne), if_pos h, if_neg h.asymm⟩)
  case inr.inl => exact .inl ⟨if_pos (BitVec.eq_of_toNat_eq h), if_neg h.not_lt, if_neg h.not_gt⟩
  case inr.inr => exact .inr (.inr ⟨if_neg (mt BitVec.toNat_inj.2 h.ne'), if_neg h.asymm, if_pos h⟩)

theorem fGreater_eq_not_less_or_equal (v c : Word) :
    fGreater v c = Config.highBits &&& ~~~(fLess v c ||| fEqual v c) :=
  word_ext fun i => by
    rw [lane_and, lane_not, lane_or, lane_highBits]
    obtain ⟨he, hl, hg⟩ | ⟨he, hl, hg⟩ | ⟨he, hl, hg⟩ := lane_trichotomy v c i <;> rw [he, hl, hg] <;> rfl

/-- Settles O38 (41_comparator.md R123, R125). -/
theorem lessAndGreaterFunctions : Obligations.LessAndGreaterFunctions := fun v c =>
  ⟨lane_fLess_eq_ite v c, lane_fGreater_eq_ite v c, fLess_eq_formula v c, fGreater_eq_formula v c, fLess_self v,
    fLess_self v, fLess_eq_fGreater_swap v c, fGreater_eq_not_less_or_equal v c,
    fun a b i => by
      rw [lane_fLess_eq_ite, lane_fGreater_eq_ite, lane_fBroadcast, lane_fBroadcast]
      exact ⟨rfl, rfl⟩⟩

/-! ### Trichotomy -/

/-- The flag words of the three comparators cover `HIGHBITS` and are pairwise disjoint. -/
theorem comparators_cover_and_disjoint (v c : Word) :
    (fEqual v c ||| fLess v c ||| fGreater v c) = Config.highBits ∧ (fEqual v c &&& fLess v c) = 0#64 ∧
      (fEqual v c &&& fGreater v c) = 0#64 ∧ (fLess v c &&& fGreater v c) = 0#64 := by
  refine ⟨word_ext fun i => ?_, word_ext fun i => ?_, word_ext fun i => ?_, word_ext fun i => ?_⟩
  all_goals
    simp only [lane_and, lane_or, lane_highBits, lane_zero]
    obtain ⟨he, hl, hg⟩ | ⟨he, hl, hg⟩ | ⟨he, hl, hg⟩ := lane_trichotomy v c i <;> simp only [he, hl, hg] <;> rfl

theorem highBitFlag_of_comparator : ∀ f ∈ [fEqual, fLess, fGreater], ∀ v c : Word, highBitFlag (f v c) = true := by
  simp only [List.forall_mem_cons]
  exact ⟨fun v c => highBitFlag_of_lane_eq_flagByte (lane_fEqual v c),
    fun v c => highBitFlag_of_lane_eq_flagByte (lane_fLess v c),
    fun v c => highBitFlag_of_lane_eq_flagByte (lane_fGreater v c), nofun⟩

/-- Settles O39 (41_comparator.md R120). -/
theorem comparatorTrichotomy : Obligations.ComparatorTrichotomy := by
  intro v c
  refine ⟨?_, ?_, ?_, fun i f hf => ?lanes, fun i => ?predicates, fun v' c' i hv hc f hf => ?independent,
    comparators_cover_and_disjoint v c⟩
  case lanes => exact (highBitFlag_iff.1 (highBitFlag_of_comparator f hf v c) i).symm
  case predicates => simp
  case independent => exact lanesAreIndependent.1 f (List.mem_append_left _ hf) v c v' c' i hv hc
  all_goals exact and_not_highBits_of_highBitFlag (highBitFlag_of_comparator _ (by simp) v c)

end Sys2Proof.Machine
end

section
/-! The eleven commands of format R3 (41_comparator.md R122, R124, R126, 42_arithmetic.md R132 to R146): their words
from the encoder's, their effect one register write. -/

namespace Sys2Proof

open Machine

theorem hasFormatR3_of_encode {o : Op} {mk : Reg → Reg → Reg → Instr} (hfmt : o.format = .r3)
    (henc : ∀ rd ra rb, encode (mk rd ra rb) = encodeR3 o rd ra rb ∧ (mk rd ra rb).wellFormed = true) :
    HasFormatR3 o.code mk := by
  have hreserved := hfmt ▸ rejectsReserved_of_op o
  refine ⟨fun rd ra rb => ?_, hreserved⟩
  rw [Reg.ofNat_val_eq_field, Reg.ofNat_val_eq_field, Reg.ofNat_val_eq_field]
  exact decode_eq_ok_iff_encode_eq.2 (henc rd ra rb)

/-- A command whose word is its opcode's and whose meaning is one write of `f` of the two sources. -/
theorem hasFormatR3_and_computes2 (o : Op) {mk : Reg → Reg → Reg → Instr} {f : Word → Word → Word}
    (hfmt : o.format = .r3)
    (h : ∀ rd ra rb, encode (mk rd ra rb) = encodeR3 o rd ra rb ∧ (mk rd ra rb).wellFormed = true ∧
      ∀ s, exec (mk rd ra rb) s = retire (s.setReg rd (f (s.reg ra) (s.reg rb)))) :
    HasFormatR3 o.code mk ∧ Computes2 mk f := by
  refine ⟨hasFormatR3_of_encode hfmt fun rd ra rb => ?word, fun rd ra rb s => ?effect⟩
  all_goals obtain ⟨henc, hwf, hexec⟩ := h rd ra rb
  case word => exact ⟨henc, hwf⟩
  case effect => exact completesWith_of_setReg (hexec s)

/-- Settles O53 (41_comparator.md R122, R124, R126, 42_arithmetic.md R132 to R146). -/
theorem threeRegisterCommands : Obligations.ThreeRegisterCommands := by
  refine ⟨hasFormatR3_and_computes2 .eq rfl ?_, hasFormatR3_and_computes2 .lt rfl ?_,
    hasFormatR3_and_computes2 .gt rfl ?_, hasFormatR3_and_computes2 .addw rfl ?_,
    hasFormatR3_and_computes2 .subw rfl ?_, hasFormatR3_and_computes2 .adds rfl ?_,
    hasFormatR3_and_computes2 .subs rfl ?_, hasFormatR3_and_computes2 .absd rfl ?_,
    hasFormatR3_and_computes2 .min rfl ?_, hasFormatR3_and_computes2 .max rfl ?_,
    hasFormatR3_and_computes2 .avg rfl ?_⟩
  all_goals exact fun _ _ _ => ⟨rfl, rfl, fun _ => rfl⟩

end Sys2Proof
end

section
/-! Word operations that stay within lanes besides the carry-free sum and difference: a masked right shift, the product
by a small constant, and `F_mask` (42_arithmetic.md R130 (f)) with the selection it drives. -/

namespace Sys2Proof.Machine

/-- Words whose lanes have equal values are equal. -/
theorem word_ext_toNat {v w : Word} (h : ∀ i, (lane v i).toNat = (lane w i).toNat) : v = w :=
  word_ext fun i => BitVec.eq_of_toNat_eq (h i)

@[simp] theorem lane_allOnes (i : Fin 8) : lane 0xFFFFFFFFFFFFFFFF#64 i = 0xFF#8 := by fin_cases i <;> decide

/-- A right shift by `k` brings bits of the next lane into the top `k` bits of a lane; a mask without these bits removes
them. -/
theorem lane_ushiftRight_and {k : Nat} {m : Byte} (hm : m.toNat < 2 ^ (8 - k)) (w : Word) (i : Fin 8) :
    lane (w >>> k) i &&& m = (lane w i >>> k) &&& m := by
  apply BitVec.eq_of_getLsbD_eq
  intro j hj
  rw [BitVec.getLsbD_and, BitVec.getLsbD_and]
  by_cases hjk : k + j < 8
  · rw [getLsbD_lane _ _ hj, BitVec.getLsbD_ushiftRight, BitVec.getLsbD_ushiftRight, getLsbD_lane _ _ hjk,
      Nat.add_left_comm]
  · have hclear : m.getLsbD j = false :=
      Nat.testBit_lt_two_pow (hm.trans_le (Nat.pow_le_pow_right (by decide) (by omega)))
    rw [hclear, Bool.and_false, Bool.and_false]

/-- Where no lane's product reaches 256, the product by a byte is lane-wise. -/
theorem lane_mul {w : Word} {c : Byte} (h : ∀ i, (lane w i).toNat * c.toNat < 256) (i : Fin 8) :
    lane (w * c.setWidth 64) i = lane w i * c := by
  have hprod : (map1 (· * c) w).toNat = w.toNat * c.toNat := by
    rw [toNat_eq_sum_lanes w, ← List.sum_map_mul_right, toNat_eq_sum_lanes]
    simp only [lane_map1, BitVec.toNat_mul, Nat.mod_eq_of_lt (h _), Nat.mul_right_comm]
  have hword : w * c.setWidth 64 = map1 (· * c) w := by
    apply BitVec.eq_of_toNat_eq
    rw [BitVec.toNat_mul, BitVec.toNat_setWidth_of_le (by decide), ← hprod, Nat.mod_eq_of_lt (map1 _ w).isLt]
  rw [hword, lane_map1]

/-- The shift of `F_mask` moves each flag to bit 0 of its own lane: in a flag word it moves nothing else. -/
theorem lane_ushiftRight_seven {f : Word} {p : Fin 8 → Bool} (h : ∀ i, lane f i = flagByte (p i)) (i : Fin 8) :
    lane (f >>> 7) i = if p i then 0x01#8 else 0x00#8 := by
  have hflags : f &&& Config.highBits = f := word_ext fun j => by
    rw [lane_and, h j, lane_highBits]
    cases p j <;> rfl
  have hshift : f >>> 7 = (f >>> 7) &&& Config.lowBits := by
    conv_lhs => rw [← hflags, BitVec.ushiftRight_and_distrib]
    rfl
  rw [hshift, lane_and, lane_lowBits, lane_ushiftRight_and (by decide), h i]
  cases p i <;> rfl

/-- `F_mask` of a flag word is 0xFF in the flagged lanes and 0x00 in the others (42_arithmetic.md R130 (f)). -/
theorem lane_flagMask {f : Word} {p : Fin 8 → Bool} (h : ∀ i, lane f i = flagByte (p i)) (i : Fin 8) :
    lane (flagMask f) i = if p i then 0xFF#8 else 0x00#8 := by
  have hbit := lane_ushiftRight_seven h
  change lane ((f >>> 7) * (0xFF#8).setWidth 64) i = _
  rw [lane_mul fun j => ?small, hbit i]
  · cases p i <;> rfl
  case small =>
    rw [hbit j]
    cases p j <;> decide

@[simp] theorem and_ones (b : Byte) : b &&& 0xFF#8 = b := BitVec.and_allOnes

@[simp] theorem or_ones (b : Byte) : b ||| 0xFF#8 = 0xFF#8 := BitVec.or_allOnes

/-- The selection by `F_mask` of the formulas of R139, R141 and R143. -/
theorem lane_select_flagMask {f : Word} {p : Fin 8 → Bool} (h : ∀ i, lane f i = flagByte (p i)) (v w : Word)
    (i : Fin 8) : lane ((v &&& flagMask f) ||| (w &&& ~~~flagMask f)) i = if p i then lane v i else lane w i := by
  rw [lane_or, lane_and, lane_and, lane_not, lane_flagMask h]
  cases p i <;> simp

end Sys2Proof.Machine
end

section
/-! Per-lane unsigned arithmetic (42_arithmetic.md R131 to R145): one lane of each function as a number, one lane of
each word formula, and the functions' laws. -/

namespace Sys2Proof.Machine

/-! ### One lane of each function -/

theorem laneAddWrap_eq_add (a b : Byte) : laneAddWrap a b = a + b := by
  apply BitVec.eq_of_toNat_eq
  rw [laneAddWrap, BitVec.toNat_ofNat, BitVec.toNat_add, Nat.mod_mod]

theorem laneSubWrap_eq_sub (a b : Byte) : laneSubWrap a b = a - b := by
  apply BitVec.eq_of_toNat_eq
  rw [laneSubWrap, BitVec.toNat_ofNat, BitVec.toNat_sub, Nat.mod_mod]
  omega

/-- A result that fits the byte is not narrowed. -/
theorem toNat_ofNat_byte {n : Nat} (h : n < 256) : (BitVec.ofNat 8 n).toNat = n :=
  (BitVec.toNat_ofNat _ _).trans (Nat.mod_eq_of_lt h)

@[simp] theorem toNat_laneAddSat (a b : Byte) : (laneAddSat a b).toNat = min (a.toNat + b.toNat) 255 :=
  toNat_ofNat_byte (Nat.lt_succ_of_le (Nat.min_le_right _ _))

@[simp] theorem toNat_laneSubSat (a b : Byte) : (laneSubSat a b).toNat = a.toNat - b.toNat :=
  toNat_ofNat_byte (by omega)

@[simp] theorem toNat_laneAbsDiff (a b : Byte) : (laneAbsDiff a b).toNat = ((a.toNat : Int) - b.toNat).natAbs :=
  toNat_ofNat_byte (by omega)

@[simp] theorem toNat_laneMin (a b : Byte) : (laneMin a b).toNat = min a.toNat b.toNat := by
  rw [laneMin, apply_ite BitVec.toNat, min_def]

@[simp] theorem toNat_laneMax (a b : Byte) : (laneMax a b).toNat = max a.toNat b.toNat := by
  rw [laneMax, apply_ite BitVec.toNat, max_def]

@[simp] theorem toNat_laneAverage (a b : Byte) : (laneAverage a b).toNat = (a.toNat + b.toNat) / 2 :=
  toNat_ofNat_byte (by omega)

/-! ### One lane of each word formula -/

/-- A byte is its low seven bits and its bit 7. -/
theorem low_add_high (b : Byte) : (b &&& 0x7F#8) + (b &&& 0x80#8) = b := by decide +revert

/-- A byte with bit 7 set is 0x80 above its low seven bits. -/
theorem or_high_eq_low_add (b : Byte) : b ||| 0x80#8 = (b &&& 0x7F#8) + 0x80#8 := by decide +revert

/-- On bit 7 alone, XOR is addition: the carry leaves the byte. -/
theorem xor_high (x b : Byte) : x ^^^ (b &&& 0x80#8) = x + (b &&& 0x80#8) := by
  rw [and_high_eq_flagByte]
  cases b.msb
  case false => rw [flagByte_false, BitVec.xor_zero, BitVec.add_zero]
  case true =>
    rw [flagByte_true]
    decide +revert

theorem high_xor (a b : Byte) : (a ^^^ b) &&& 0x80#8 = (a &&& 0x80#8) + (b &&& 0x80#8) := by
  rw [← xor_high]
  ext k
  simp [Bool.and_xor_distrib_right]

theorem high_not (b : Byte) : ~~~b &&& 0x80#8 = 0x80#8 - (b &&& 0x80#8) := by decide +revert

/-- The low seven bits are added, and bit 7 of the sum is completed by the operands' own (R131). -/
theorem addWrap_byte_formula (a b : Byte) :
    ((a &&& 0x7F#8) + (b &&& 0x7F#8)) ^^^ ((a ^^^ b) &&& 0x80#8) = laneAddWrap a b := by
  rw [laneAddWrap_eq_add, xor_high, high_xor]
  conv_rhs => rw [← low_add_high a, ← low_add_high b]
  ac_rfl

/-- The low seven bits are subtracted under a guard of 0x80; bit 7 is completed by that of `a`, that of `b`
complemented, and the two guards cancel (R133). -/
theorem subWrap_byte_formula (a b : Byte) :
    ((a ||| 0x80#8) - (b &&& 0x7F#8)) ^^^ ((a ^^^ ~~~b) &&& 0x80#8) = laneSubWrap a b := by
  rw [laneSubWrap_eq_sub, xor_high, high_xor, high_not, or_high_eq_low_add]
  conv_rhs => rw [← low_add_high a, ← low_add_high b]
  have hguards : (0x80#8 : Byte) + 0x80#8 = 0 := rfl
  linear_combination hguards

/-- The carry out of a byte: both operands have bit 7, or one has it and the sum lost it (R135). -/
theorem carry_byte_formula (a b : Byte) :
    ((a &&& b) ||| ((a ||| b) &&& ~~~laneAddWrap a b)) &&& 0x80#8 = flagByte (decide (255 < a.toNat + b.toNat)) := by
  rw [and_high_eq_flagByte, laneAddWrap_eq_add]
  simp only [BitVec.msb_or, BitVec.msb_and, BitVec.msb_not]
  rw [msb_byte a, msb_byte b, msb_byte (a + b), BitVec.toNat_add]
  congr 1
  rw [Bool.eq_iff_iff]
  simp only [Nat.ofNat_pos, decide_true, Bool.true_and, Bool.or_eq_true, Bool.and_eq_true, Bool.not_eq_eq_eq_not,
    Bool.not_true, decide_eq_false_iff_not, decide_eq_true_eq]
  omega

/-- The borrow of a byte: bit 7 alone says that `a` is less, or the two agree in bit 7 and the difference has it
(R137). -/
theorem borrow_byte_formula (a b : Byte) :
    ((~~~a &&& b) ||| (~~~(a ^^^ b) &&& laneSubWrap a b)) &&& 0x80#8 = flagByte (decide (a.toNat < b.toNat)) := by
  rw [and_high_eq_flagByte, laneSubWrap_eq_sub]
  simp only [BitVec.msb_or, BitVec.msb_and, BitVec.msb_not, BitVec.msb_xor]
  rw [msb_byte a, msb_byte b, msb_byte (a - b), BitVec.toNat_sub]
  congr 1
  rw [Bool.eq_iff_iff]
  simp only [Nat.ofNat_pos, decide_true, Bool.true_and, Bool.or_eq_true, Bool.and_eq_true, Bool.not_eq_eq_eq_not,
    Bool.not_true, decide_eq_false_iff_not, decide_eq_true_eq, bne_eq_false_iff_eq, decide_eq_decide]
  omega

/-- A mask of the carry clamps the wrapped sum at 0xFF. -/
theorem addWrap_or_mask (a b : Byte) :
    (laneAddWrap a b ||| if decide (255 < a.toNat + b.toNat) then 0xFF#8 else 0x00#8) = laneAddSat a b := by
  apply BitVec.eq_of_toNat_eq
  rw [laneAddWrap_eq_add, toNat_laneAddSat]
  by_cases hcarry : 255 < a.toNat + b.toNat
  · rw [decide_eq_true hcarry, if_pos rfl, or_ones, Nat.min_eq_right hcarry.le]
    rfl
  · rw [decide_eq_false hcarry, if_neg nofun, BitVec.or_zero, BitVec.toNat_add]
    omega

theorem laneSubSat_of_le {a b : Byte} (h : a.toNat ≤ b.toNat) : laneSubSat a b = 0x00#8 := by
  rw [laneSubSat, Nat.sub_eq_zero_of_le h]

/-- The complement of a mask of the borrow clamps the wrapped difference at 0x00. -/
theorem subWrap_and_not_mask (a b : Byte) :
    (laneSubWrap a b &&& ~~~if decide (a.toNat < b.toNat) then 0xFF#8 else 0x00#8) = laneSubSat a b := by
  by_cases hborrow : a.toNat < b.toNat
  · rw [decide_eq_true hborrow, if_pos rfl, laneSubSat_of_le hborrow.le]
    exact BitVec.and_zero
  · rw [decide_eq_false hborrow, if_neg nofun, laneSubWrap_eq_sub]
    apply BitVec.eq_of_toNat_eq
    rw [toNat_laneSubSat, ← BitVec.toNat_sub_of_le (not_lt.1 hborrow)]
    exact congrArg BitVec.toNat (and_ones _)

/-- The bits of `a` inside and outside `b` do not overlap. -/
theorem toNat_and_add_and_not (a b : Byte) : (a &&& b).toNat + (a &&& ~~~b).toNat = a.toNat := by
  have hdisjoint : (a &&& b) &&& (a &&& ~~~b) = 0#8 := by
    ext k
    simp +contextual
  rw [← BitVec.toNat_add_of_and_eq_zero hdisjoint, BitVec.add_eq_or_of_and_eq_zero _ _ hdisjoint]
  congr 1
  ext k
  simp [← Bool.and_or_distrib_left]

/-- The common bits count twice in a sum, the differing ones once: `a + b = 2 (a & b) + (a ^ b)` (R145). -/
theorem two_mul_and_add_xor (a b : Byte) : 2 * (a &&& b).toNat + (a ^^^ b).toNat = a.toNat + b.toNat := by
  have ha := toNat_and_add_and_not a b
  have hb := toNat_and_add_and_not b a
  have hxor := toNat_and_add_and_not (a ^^^ b) a
  have hin : (a ^^^ b) &&& a = a &&& ~~~b := by
    ext k
    simp only [BitVec.getElem_and, BitVec.getElem_xor, BitVec.getElem_not]
    cases a[k] <;> cases b[k] <;> rfl
  have hout : (a ^^^ b) &&& ~~~a = b &&& ~~~a := by
    ext k
    simp only [BitVec.getElem_and, BitVec.getElem_xor, BitVec.getElem_not]
    cases a[k] <;> cases b[k] <;> rfl
  rw [hin, hout] at hxor
  rw [BitVec.and_comm] at hb
  omega

/-- Half the sum from the common bits and half the differing ones (R145): `a + b = 2 (a & b) + (a ^ b)`. -/
theorem average_byte_formula (a b : Byte) : (a &&& b).toNat + (a ^^^ b).toNat / 2 = (laneAverage a b).toNat := by
  rw [toNat_laneAverage, ← two_mul_and_add_xor]
  omega

/-- The mask of `F_less` selects the smaller byte, either one where they are equal (R141). -/
theorem laneMin_eq_ite (a b : Byte) : laneMin a b = if decide (a.toNat < b.toNat) then a else b := by
  apply BitVec.eq_of_toNat_eq
  rw [toNat_laneMin, apply_ite BitVec.toNat]
  simp only [decide_eq_true_eq]
  split_ifs <;> omega

/-- The complement of the mask of `F_less` selects the larger byte (R143). -/
theorem laneMax_eq_ite (a b : Byte) : laneMax a b = if decide (a.toNat < b.toNat) then b else a := by
  apply BitVec.eq_of_toNat_eq
  rw [toNat_laneMax, apply_ite BitVec.toNat]
  simp only [decide_eq_true_eq]
  split_ifs <;> omega

/-- The larger byte less the smaller one does not wrap (R139). -/
theorem laneAbsDiff_eq_subWrap (a b : Byte) : laneAbsDiff a b = laneSubWrap (laneMax a b) (laneMin a b) := by
  have hle : (laneMin a b).toNat ≤ (laneMax a b).toNat := by
    rw [toNat_laneMin, toNat_laneMax]
    exact min_le_max
  apply BitVec.eq_of_toNat_eq
  rw [laneSubWrap_eq_sub, BitVec.toNat_sub_of_le hle, toNat_laneAbsDiff, toNat_laneMin, toNat_laneMax]
  omega

/-! ### Wrapping addition and subtraction -/

theorem toNat_low_add_low_lt (a b : Byte) : (a &&& 0x7F#8).toNat + (b &&& 0x7F#8).toNat < 256 := by
  rw [toNat_and_low, toNat_and_low]
  omega

theorem fAddWrap_eq_formula (a b : Word) : fAddWrap a b = addWrapFormula a b :=
  word_ext fun i => by
    have hcarry (j : Fin 8) : (lane (a &&& Config.low7) j).toNat + (lane (b &&& Config.low7) j).toNat < 256 := by
      rw [lane_and, lane_and, lane_low7]
      exact toNat_low_add_low_lt _ _
    rw [addWrapFormula, lane_xor, lane_add hcarry]
    simp only [lane_and, lane_xor, lane_highBits, lane_low7, addWrap_byte_formula, lane_fAddWrap]

theorem fSubWrap_eq_formula (a b : Word) : fSubWrap a b = subWrapFormula a b :=
  word_ext fun i => by
    rw [subWrapFormula, lane_xor, lane_sub (low7_le_highBits a b)]
    simp only [lane_and, lane_or, lane_xor, lane_not, lane_highBits, lane_low7, subWrap_byte_formula, lane_fSubWrap]

/-- Settles O40 (42_arithmetic.md R131): the laws are those of addition of bytes. -/
theorem addWrapFunction : Obligations.AddWrapFunction := by
  intro a b c
  refine ⟨fun i => ?value, fAddWrap_eq_formula a b, word_ext fun i => ?comm, word_ext fun i => ?zero,
    word_ext fun i => ?assoc, word_ext fun i => ?undo⟩
  case value => rw [lane_fAddWrap, laneAddWrap_eq_add, BitVec.toNat_add]
  all_goals simp only [lane_fAddWrap, lane_fSubWrap, lane_zero, laneAddWrap_eq_add, laneSubWrap_eq_sub]
  case comm => exact BitVec.add_comm _ _
  case zero => exact BitVec.add_zero _
  case assoc => exact BitVec.add_assoc _ _ _
  case undo => exact BitVec.add_sub_cancel _ _

/-- Settles O41 (42_arithmetic.md R133): the laws are those of subtraction of bytes; 0 and 1 do not commute. -/
theorem subWrapFunction : Obligations.SubWrapFunction := by
  refine ⟨fun a b => ⟨fun i => ?value, fSubWrap_eq_formula a b, word_ext fun i => ?self, word_ext fun i => ?zero⟩,
    0#64, 1#64, by decide⟩
  all_goals simp only [lane_fSubWrap, lane_zero, laneSubWrap_eq_sub]
  case value =>
    rw [BitVec.toNat_sub]
    omega
  case self => exact BitVec.sub_self _
  case zero => exact BitVec.sub_zero _

/-! ### Saturating addition and subtraction -/

theorem fAddSat_eq_formula (a b : Word) : fAddSat a b = addSatFormula a b :=
  word_ext fun i => by
    have hcarry (j : Fin 8) : lane (((a &&& b) ||| ((a ||| b) &&& ~~~fAddWrap a b)) &&& Config.highBits) j
        = flagByte (decide (255 < (lane a j).toNat + (lane b j).toNat)) := by
      simp only [lane_and, lane_or, lane_not, lane_highBits, lane_fAddWrap, carry_byte_formula]
    rw [addSatFormula, ← fAddWrap_eq_formula, lane_or, lane_flagMask hcarry, lane_fAddWrap, addWrap_or_mask,
      lane_fAddSat]

/-- The borrow of `F_subWrap` is `F_less` (R137). -/
theorem borrow_eq_fLess (a b : Word) :
    ((~~~a &&& b) ||| (~~~(a ^^^ b) &&& fSubWrap a b)) &&& Config.highBits = fLess a b :=
  word_ext fun i => by
    simp only [lane_and, lane_or, lane_xor, lane_not, lane_highBits, lane_fSubWrap, borrow_byte_formula, lane_fLess]

theorem fSubSat_eq_formula (a b : Word) : fSubSat a b = subSatFormula a b :=
  word_ext fun i => by
    rw [subSatFormula, ← fSubWrap_eq_formula, borrow_eq_fLess, lane_and, lane_not, lane_flagMask (lane_fLess a b),
      lane_fSubWrap, subWrap_and_not_mask, lane_fSubSat]

/-- Settles O42 (42_arithmetic.md R135): 1 + 255 is clamped, and less 255 it is 0. -/
theorem addSatFunction : Obligations.AddSatFunction := by
  refine ⟨fun a b => ⟨fun i => ?value, fAddSat_eq_formula a b, word_ext_toNat fun i => ?comm,
    word_ext_toNat fun i => ?zero⟩, fun a a' b h i => ?mono, 0x01#64, 0xFF#64, by decide⟩
  all_goals simp only [lane_fAddSat, lane_zero, toNat_laneAddSat]
  case comm => rw [Nat.add_comm]
  case zero => exact Nat.min_eq_left (Nat.le_of_lt_succ (lane a i).isLt)
  case mono =>
    exact ⟨min_le_min_right 255 (Nat.add_le_add_right (h i) _), min_le_min_right 255 (Nat.add_le_add_left (h i) _)⟩

/-- Settles O43 (42_arithmetic.md R137). -/
theorem subSatFunction : Obligations.SubSatFunction := by
  intro a b
  refine ⟨fun i => ?value, fSubSat_eq_formula a b, fun i h => ?clamped, word_ext fun i => ?self,
    word_ext_toNat fun i => ?zero, fun i => ⟨?sum, ?one⟩⟩
  all_goals simp only [lane_fSubSat, lane_fAbsDiff, lane_zero, toNat_laneSubSat, toNat_laneAbsDiff]
  case value => omega
  case clamped => exact laneSubSat_of_le h
  case self => exact laneSubSat_of_le le_rfl
  case zero => exact Nat.sub_zero _
  case sum => omega
  case one => exact (le_total _ _).imp laneSubSat_of_le laneSubSat_of_le

/-! ### Minimum, maximum and the absolute difference -/

theorem fMin_eq_formula (a b : Word) : fMin a b = minFormula a b :=
  word_ext fun i => by
    rw [minFormula, ← fLess_eq_formula, lane_select_flagMask (lane_fLess a b), lane_fMin, laneMin_eq_ite]

theorem fMax_eq_formula (a b : Word) : fMax a b = maxFormula a b :=
  word_ext fun i => by
    rw [maxFormula, ← fLess_eq_formula, lane_select_flagMask (lane_fLess a b), lane_fMax, laneMax_eq_ite]

theorem fAbsDiff_eq_subWrap (a b : Word) : fAbsDiff a b = fSubWrap (fMax a b) (fMin a b) :=
  word_ext fun i => by
    rw [lane_fAbsDiff, lane_fSubWrap, lane_fMax, lane_fMin, laneAbsDiff_eq_subWrap]

/-- The formula is that of `F_subWrap` on those of `F_max` and `F_min`. -/
theorem fAbsDiff_eq_formula (a b : Word) : fAbsDiff a b = absDiffFormula a b := by
  rw [fAbsDiff_eq_subWrap, fSubWrap_eq_formula, fMax_eq_formula, fMin_eq_formula]
  rfl

/-- Settles O44 (42_arithmetic.md R139). -/
theorem absDiffFunction : Obligations.AbsDiffFunction := by
  intro a b
  refine ⟨fun i => ?value, fAbsDiff_eq_formula a b, word_ext_toNat fun i => ?comm, word_ext_toNat fun i => ?self,
    word_ext_toNat fun i => ?zero, fAbsDiff_eq_subWrap a b⟩
  all_goals simp only [lane_fAbsDiff, lane_zero, toNat_laneAbsDiff, BitVec.toNat_zero]
  case value => exact Int.natCast_natAbs _
  case comm => omega
  case self => rw [sub_self, Int.natAbs_zero]
  case zero => exact congrArg Int.natAbs (sub_zero _)

/-- Settles O45 (42_arithmetic.md R141, R143): the laws are those of the order of numbers. -/
theorem minAndMaxFunctions : Obligations.MinAndMaxFunctions := by
  refine ⟨fun a b c => ⟨fun i => ⟨?min, ?max⟩, fMin_eq_formula a b, fMax_eq_formula a b,
    word_ext_toNat fun i => ?minComm, word_ext_toNat fun i => ?maxComm, word_ext_toNat fun i => ?minAssoc,
    word_ext_toNat fun i => ?maxAssoc, word_ext_toNat fun i => ?minSelf, fMax_self a, word_ext_toNat fun i => ?minZero,
    word_ext_toNat fun i => ?minOnes, word_ext_toNat fun i => ?maxZero, fun i => ?sum⟩, fun f g hf hg i => ?flags⟩
  case flags =>
    rw [lane_fMin, lane_fMax]
    exact flagLane_logic (highBitFlag_iff.1 hf i) (highBitFlag_iff.1 hg i)
  all_goals simp only [lane_fMin, lane_fMax, lane_zero, lane_allOnes, toNat_laneMin, toNat_laneMax]
  case minComm => exact min_comm _ _
  case maxComm => exact max_comm _ _
  case minAssoc => exact min_assoc _ _ _
  case maxAssoc => exact max_assoc _ _ _
  case minSelf => exact min_self _
  case minZero => exact Nat.min_zero _
  case minOnes => exact min_eq_left (Nat.le_of_lt_succ (lane a i).isLt)
  case maxZero => exact Nat.max_zero _
  case sum => exact min_add_max _ _

/-! ### Average -/

/-- The masked shift of R145 halves every lane. -/
theorem toNat_lane_halved (w : Word) (i : Fin 8) :
    (lane ((w >>> 1) &&& Config.low7) i).toNat = (lane w i).toNat / 2 := by
  rw [lane_and, lane_low7, lane_ushiftRight_and (by decide), toNat_and_low, BitVec.toNat_ushiftRight,
    Nat.shiftRight_eq_div_pow]
  omega

/-- The two terms of the formula of R145 add up to the average, so no lane of their sum carries. -/
theorem toNat_average_terms (a b : Word) (i : Fin 8) :
    (lane (a &&& b) i).toNat + (lane (((a ^^^ b) >>> 1) &&& Config.low7) i).toNat = (lane (fAverage a b) i).toNat := by
  rw [toNat_lane_halved, lane_and, lane_xor, average_byte_formula, lane_fAverage]

theorem fAverage_eq_formula (a b : Word) : fAverage a b = averageFormula a b :=
  word_ext_toNat fun i => by
    have hterms := toNat_average_terms a b
    rw [averageFormula, lane_add fun j => (hterms j).trans_lt (lane (fAverage a b) j).isLt, BitVec.toNat_add, hterms,
      Nat.mod_eq_of_lt (lane (fAverage a b) i).isLt]

/-- Settles O46 (42_arithmetic.md R145). -/
theorem averageFunction : Obligations.AverageFunction := by
  refine ⟨fun a b => ⟨fun i => ?value, fAverage_eq_formula a b, word_ext_toNat fun i => ?self,
    word_ext_toNat fun i => ?comm, fun i => ⟨?lower, ?upper⟩⟩, word_ext fun i => ?floor⟩
  case floor =>
    rw [lane_fAverage, lane_fBroadcast, lane_fBroadcast, lane_fBroadcast]
    rfl
  all_goals simp only [lane_fAverage, lane_fMin, lane_fMax, toNat_laneAverage, toNat_laneMin, toNat_laneMax]
  case comm => rw [Nat.add_comm]
  all_goals omega

end Sys2Proof.Machine
end

section
/-! The bit operations inside a lane (43_bitops.md R150, R152, R154): each exchange of bits is an exclusive-or on the
bit number, so the laws are those of exclusive-or; the population count adds ever wider fields of a lane. -/

namespace Sys2Proof.Machine

/-! ### Masks and shifts, lane by lane -/

@[simp] theorem lane_m55 (i : Fin 8) : lane Config.m55 i = 0x55#8 := by fin_cases i <;> decide

@[simp] theorem lane_m33 (i : Fin 8) : lane Config.m33 i = 0x33#8 := by fin_cases i <;> decide

@[simp] theorem lane_m0F (i : Fin 8) : lane Config.m0F i = 0x0F#8 := by fin_cases i <;> decide

/-- A left shift by `k` is the product by `2 ^ k`, lane-wise where it leaves no lane. -/
theorem lane_shiftLeft {k : Nat} (hk : k < 8) {w : Word} (h : ∀ i, (lane w i).toNat * 2 ^ k < 256) (i : Fin 8) :
    lane (w <<< k) i = lane w i <<< k := by
  have hpow : (BitVec.twoPow 8 k).toNat = 2 ^ k := BitVec.toNat_twoPow_of_lt hk
  have hword : w <<< k = w * (BitVec.twoPow 8 k).setWidth 64 := by
    rw [BitVec.shiftLeft_eq_mul_twoPow]
    congr 1
    apply BitVec.eq_of_toNat_eq
    rw [BitVec.toNat_setWidth_of_le (by decide), hpow, BitVec.toNat_twoPow_of_lt (by omega)]
  rw [hword, lane_mul (fun j => hpow ▸ h j), BitVec.shiftLeft_eq_mul_twoPow]

/-! ### Exchanges of bits -/

/-- One step of the formulas of R150 and R152: bits `k` apart are exchanged, `m` being the lower bit of each pair. -/
def exchangeBits {n : Nat} (k : Nat) (m v : BitVec n) : BitVec n := ((v >>> k) &&& m) ||| ((v &&& m) <<< k)

/-- The mask keeps the bits of a step in their lane. -/
theorem lane_exchangeBits {k : Nat} (hk : k < 8) {m : Word} {b : Byte} (hm : ∀ i, lane m i = b)
    (hb : b.toNat * 2 ^ k < 256) (w : Word) (i : Fin 8) :
    lane (exchangeBits k m w) i = exchangeBits k b (lane w i) := by
  have hlt : b.toNat < 2 ^ (8 - k) := by
    rw [← Nat.mul_lt_mul_right (Nat.two_pow_pos k), ← Nat.pow_add, Nat.sub_add_cancel hk.le]
    exact hb
  have hfits (j : Fin 8) : (lane (w &&& m) j).toNat * 2 ^ k < 256 := by
    rw [lane_and, hm, BitVec.toNat_and]
    exact (Nat.mul_le_mul_right _ Nat.and_le_right).trans_lt hb
  rw [exchangeBits, lane_or, lane_shiftLeft hk hfits, lane_and, lane_and, hm, lane_ushiftRight_and hlt, exchangeBits]

/-- Bit `j` of the result is bit `j` xor `k` of the operand: the shape of every exchange of this file. -/
structure XorsBitNumbers (f : Byte → Byte) (k : Nat) : Prop where
  lt_eight : k < 8
  getLsbD_eq : ∀ (v : Byte) {j : Nat}, j < 8 → (f v).getLsbD j = v.getLsbD (j ^^^ k)

namespace XorsBitNumbers

variable {f g : Byte → Byte} {k l : Nat}

protected theorem id : XorsBitNumbers id 0 := ⟨by decide, fun _ j _ => by rw [Nat.xor_zero, id]⟩

theorem comp (hf : XorsBitNumbers f k) (hg : XorsBitNumbers g l) : XorsBitNumbers (f ∘ g) (k ^^^ l) where
  lt_eight := Nat.xor_lt_two_pow (n := 3) hf.lt_eight hg.lt_eight
  getLsbD_eq v j hj := by
    have hjk : j ^^^ k < 8 := Nat.xor_lt_two_pow (n := 3) hj hf.lt_eight
    rw [Function.comp_apply, hf.getLsbD_eq _ hj, hg.getLsbD_eq _ hjk, Nat.xor_assoc]

/-- The number `k` determines the exchange. -/
theorem apply_eq (hf : XorsBitNumbers f k) (hg : XorsBitNumbers g k) (v : Byte) : f v = g v := by
  apply BitVec.eq_of_getLsbD_eq
  intro j hj
  rw [hf.getLsbD_eq v hj, hg.getLsbD_eq v hj]

theorem apply_apply (hf : XorsBitNumbers f k) (v : Byte) : f (f v) = v :=
  have hff : XorsBitNumbers (f ∘ f) 0 := Nat.xor_self k ▸ hf.comp hf
  hff.apply_eq .id v

theorem apply_comm (hf : XorsBitNumbers f k) (hg : XorsBitNumbers g l) (v : Byte) : f (g v) = g (f v) :=
  have hgf : XorsBitNumbers (g ∘ f) (k ^^^ l) := Nat.xor_comm l k ▸ hg.comp hf
  (hf.comp hg).apply_eq hgf v

end XorsBitNumbers

theorem exchangeBits_xorsBitNumbers {k : Nat} {m : Byte} (h : (k, m) ∈ [(1, 0x55#8), (2, 0x33#8), (4, 0x0F#8)]) :
    XorsBitNumbers (exchangeBits k m) k where
  lt_eight := by fin_cases h <;> decide
  getLsbD_eq v j hj := by fin_cases h <;> interval_cases j <;> simp [exchangeBits]

theorem laneSwapNibbles_xorsBitNumbers : XorsBitNumbers laneSwapNibbles 4 where
  lt_eight := by decide
  getLsbD_eq v j hj := by
    simp only [laneSwapNibbles, BitVec.getLsbD_append, BitVec.getLsbD_extractLsb']
    interval_cases j <;> rfl

theorem laneReverseBits_xorsBitNumbers : XorsBitNumbers laneReverseBits 7 where
  lt_eight := by decide
  getLsbD_eq v j hj := by
    simp only [laneReverseBits, BitVec.getLsbD_append, BitVec.getLsbD_extractLsb']
    interval_cases j <;> rfl

theorem laneSwapNibbles_eq_exchangeBits (v : Byte) : laneSwapNibbles v = exchangeBits 4 0x0F#8 v :=
  laneSwapNibbles_xorsBitNumbers.apply_eq (exchangeBits_xorsBitNumbers (by decide)) v

/-- The three steps of R152 together: 4 xor 2 xor 1 is 7. -/
theorem laneReverseBits_eq_exchangeBits (v : Byte) :
    laneReverseBits v = exchangeBits 4 0x0F#8 (exchangeBits 2 0x33#8 (exchangeBits 1 0x55#8 v)) :=
  have hsteps : XorsBitNumbers (exchangeBits 4 0x0F#8 ∘ exchangeBits 2 0x33#8 ∘ exchangeBits 1 0x55#8) 7 :=
    (exchangeBits_xorsBitNumbers (by decide)).comp
      ((exchangeBits_xorsBitNumbers (by decide)).comp (exchangeBits_xorsBitNumbers (by decide)))
  laneReverseBits_xorsBitNumbers.apply_eq hsteps v

/-- The low nibble becomes the high one; what the product by 16 shifts out of the byte is `256 * (v / 16)`. -/
theorem toNat_laneSwapNibbles (v : Byte) : (laneSwapNibbles v).toNat = (v.toNat * 16 + v.toNat / 16) % 256 := by
  have hsplit : v.toNat * 16 + v.toNat / 16 = 256 * (v.toNat / 16) + (v.toNat % 16 * 16 + v.toNat / 16) := by omega
  have hhigh : v.toNat / 16 < 16 := by omega
  rw [hsplit, Nat.mul_add_mod, Nat.mod_eq_of_lt (by omega), laneSwapNibbles, toNat_append_eq_add,
    BitVec.extractLsb'_toNat, BitVec.extractLsb'_toNat, Nat.shiftRight_zero, Nat.shiftRight_eq_div_pow]
  exact congrArg _ (Nat.mod_eq_of_lt hhigh)

theorem swapNibblesFormula_eq_exchangeBits (w : Word) :
    swapNibblesFormula w = exchangeBits 4 Config.m0F w := BitVec.or_comm _ _

theorem reverseBitsFormula_eq_exchangeBits (w : Word) : reverseBitsFormula w =
    exchangeBits 4 Config.m0F (exchangeBits 2 Config.m33 (exchangeBits 1 Config.m55 w)) := rfl

theorem fSwapNibbles_eq_formula (w : Word) : fSwapNibbles w = swapNibblesFormula w :=
  word_ext fun i => by
    rw [swapNibblesFormula_eq_exchangeBits, lane_exchangeBits (by decide) lane_m0F (by decide), lane_fSwapNibbles,
      laneSwapNibbles_eq_exchangeBits]

theorem fReverseBits_eq_formula (w : Word) : fReverseBits w = reverseBitsFormula w :=
  word_ext fun i => by
    rw [reverseBitsFormula_eq_exchangeBits, lane_exchangeBits (by decide) lane_m0F (by decide),
      lane_exchangeBits (by decide) lane_m33 (by decide), lane_exchangeBits (by decide) lane_m55 (by decide),
      lane_fReverseBits, laneReverseBits_eq_exchangeBits]

/-- Settles O48 (43_bitops.md R150, R152): the laws are those of exclusive-or on the bit numbers. -/
theorem swapAndReverseFunctions : Obligations.SwapAndReverseFunctions := by
  intro w
  refine ⟨fun i => ?swap, fun i k => ?reverse, fSwapNibbles_eq_formula w, fReverseBits_eq_formula w,
    word_ext fun i => ?swapTwice, word_ext fun i => ?reverseTwice, word_ext fun i => ?commute,
    fun i => ⟨fun h => ?flag, fun h => ?noFlag⟩⟩
  all_goals simp only [lane_fSwapNibbles, lane_fReverseBits]
  case swap => exact toNat_laneSwapNibbles _
  case reverse =>
    have hxor : k.val ^^^ 7 = 7 - k.val := by decide +revert
    rw [laneReverseBits_xorsBitNumbers.getLsbD_eq _ k.isLt, hxor]
  case swapTwice => exact laneSwapNibbles_xorsBitNumbers.apply_apply _
  case reverseTwice => exact laneReverseBits_xorsBitNumbers.apply_apply _
  case commute => exact laneSwapNibbles_xorsBitNumbers.apply_comm laneReverseBits_xorsBitNumbers _
  case flag => rw [h]; rfl
  case noFlag => rw [h]; rfl

/-! ### The population count of a byte -/

theorem bitCount_le_eight (v : Byte) : bitCount v ≤ 8 := List.countP_le_length

theorem toNat_lanePopcount (v : Byte) : (lanePopcount v).toNat = bitCount v :=
  toNat_ofNat_byte ((bitCount_le_eight v).trans_lt (by decide))

/-- The number of ones among the two lowest bits of `n`. -/
def pairOnes (n : Nat) : Nat := n % 2 + n / 2 % 2

theorem pairOnes_eq_sub (n : Nat) : pairOnes n = n % 4 - n % 4 / 2 := by
  rw [pairOnes]
  omega

theorem pairOnes_le_two (n : Nat) : pairOnes n ≤ 2 := by
  rw [pairOnes]
  omega

/-- The population count is that of the four 2-bit fields. -/
theorem bitCount_eq_sum_pairOnes (v : Byte) : bitCount v =
    pairOnes v.toNat + pairOnes (v.toNat / 4) + pairOnes (v.toNat / 16) + pairOnes (v.toNat / 64) := by
  have hdigit (k : Nat) : (if v.getLsbD k = true then 1 else 0) = v.toNat / 2 ^ k % 2 := by
    rw [BitVec.getLsbD, ← Nat.toNat_testBit, Bool.toNat, Bool.cond_eq_ite]
  have hrange : List.range 8 = [0, 1, 2, 3, 4, 5, 6, 7] := rfl
  simp only [bitCount, hrange, List.countP_cons, hdigit, List.countP_nil, pairOnes, Nat.div_div_eq_div_mul,
    Nat.pow_zero, Nat.div_one, Nat.reducePow, Nat.reduceMul]
  ring

/-- `M55` keeps the lower bit of each 2-bit field. -/
theorem toNat_and_m55 (b : Byte) : (b &&& 0x55#8).toNat =
    b.toNat % 2 + 4 * (b.toNat / 4 % 2) + 16 * (b.toNat / 16 % 2) + 64 * (b.toNat / 64 % 2) := by decide +revert

/-- `M33` keeps the lower 2-bit field of each nibble. -/
theorem toNat_and_m33 (b : Byte) : (b &&& 0x33#8).toNat = b.toNat % 4 + 16 * (b.toNat / 16 % 4) := by decide +revert

/-- `M0F` keeps the low nibble. -/
theorem toNat_and_m0F (b : Byte) : (b &&& 0x0F#8).toNat = b.toNat % 16 := Nat.and_two_pow_sub_one_eq_mod b.toNat 4

theorem toNat_ushiftRight_byte (b : Byte) (k : Nat) : (b >>> k).toNat = b.toNat / 2 ^ k := by
  rw [BitVec.toNat_ushiftRight, Nat.shiftRight_eq_div_pow]

/-- The upper bit of each 2-bit field, at the place of the lower one. -/
theorem toNat_upper_bits (b : Byte) : ((b >>> 1) &&& 0x55#8).toNat =
    b.toNat % 4 / 2 + 4 * (b.toNat / 4 % 4 / 2) + 16 * (b.toNat / 16 % 4 / 2) + 64 * (b.toNat / 64 % 4 / 2) := by
  rw [toNat_and_m55, toNat_ushiftRight_byte]
  omega

/-- A byte by its four 2-bit fields. -/
theorem toNat_eq_sum_pairs (b : Byte) :
    b.toNat = b.toNat % 4 + 4 * (b.toNat / 4 % 4) + 16 * (b.toNat / 16 % 4) + 64 * (b.toNat / 64 % 4) := by
  omega

/-- The first stage of the formula of R154: each 2-bit field less its upper bit is the number of its ones. -/
def pairCounts {n : Nat} (m55 v : BitVec n) : BitVec n := v - ((v >>> 1) &&& m55)

/-- The second stage: each nibble becomes the sum of its two 2-bit fields. -/
def nibbleSums {n : Nat} (m33 t : BitVec n) : BitVec n := (t &&& m33) + ((t >>> 2) &&& m33)

theorem popcountFormula_eq_stages (w : Word) :
    popcountFormula w = (nibbleSums Config.m33 (pairCounts Config.m55 w)
      + nibbleSums Config.m33 (pairCounts Config.m55 w) >>> 4) &&& Config.m0F := rfl

/-- The first stage borrows nothing from the next byte. -/
theorem toNat_upper_bits_le (b : Byte) : ((b >>> 1) &&& 0x55#8).toNat ≤ b.toNat := by
  rw [BitVec.toNat_and, toNat_ushiftRight_byte]
  exact Nat.and_le_left.trans (Nat.div_le_self _ _)

theorem toNat_pairCounts (b : Byte) : (pairCounts 0x55#8 b).toNat =
    pairOnes b.toNat + 4 * pairOnes (b.toNat / 4) + 16 * pairOnes (b.toNat / 16) + 64 * pairOnes (b.toNat / 64) := by
  rw [pairCounts, BitVec.toNat_sub_of_le (toNat_upper_bits_le b), toNat_upper_bits]
  simp only [pairOnes_eq_sub]
  have hpairs := toNat_eq_sum_pairs b
  generalize b.toNat % 4 = p₀, b.toNat / 4 % 4 = p₁, b.toNat / 16 % 4 = p₂, b.toNat / 64 % 4 = p₃ at *
  omega

/-- The second stage carries out of no byte. -/
theorem toNat_fields_add_lt (s t : Byte) : (s &&& 0x33#8).toNat + (t &&& 0x33#8).toNat < 256 := by
  rw [toNat_and_m33, toNat_and_m33]
  omega

theorem toNat_nibbleSums (t : Byte) : (nibbleSums 0x33#8 t).toNat =
    (t.toNat % 4 + t.toNat / 4 % 4) + 16 * (t.toNat / 16 % 4 + t.toNat / 64 % 4) := by
  rw [nibbleSums, BitVec.toNat_add, Nat.mod_eq_of_lt (toNat_fields_add_lt _ _), toNat_and_m33, toNat_and_m33,
    toNat_ushiftRight_byte]
  omega

/-- No 2-bit field of the first stage exceeds 2, so after the second each nibble holds the ones of its four bits. -/
theorem toNat_nibbleSums_pairCounts (v : Byte) : (nibbleSums 0x33#8 (pairCounts 0x55#8 v)).toNat =
    (pairOnes v.toNat + pairOnes (v.toNat / 4)) + 16 * (pairOnes (v.toNat / 16) + pairOnes (v.toNat / 64)) := by
  have h₀ := pairOnes_le_two v.toNat
  have h₁ := pairOnes_le_two (v.toNat / 4)
  have h₂ := pairOnes_le_two (v.toNat / 16)
  have h₃ := pairOnes_le_two (v.toNat / 64)
  rw [toNat_nibbleSums, toNat_pairCounts]
  generalize pairOnes v.toNat = c₀, pairOnes (v.toNat / 4) = c₁, pairOnes (v.toNat / 16) = c₂,
    pairOnes (v.toNat / 64) = c₃ at *
  omega

/-- The two nibbles of a byte, added, where their sum fits a nibble. -/
theorem low_nibble_add_high_nibble {d e : Nat} (h : d + e < 16) :
    ((d + 16 * e) % 16 + (d + 16 * e) / 16 % 16) % 16 = d + e := by
  have hlow : (d + 16 * e) % 16 = d := by omega
  have hhigh : (d + 16 * e) / 16 = e := by omega
  rw [hlow, hhigh, Nat.mod_eq_of_lt (by omega : e < 16), Nat.mod_eq_of_lt h]

/-- The third stage adds the upper nibble to the lower one. Only the low nibble of the addend `s` matters: the shift of
the word brings bits of the next lane into its high nibble. -/
theorem popcount_byte_formula {v s : Byte}
    (hs : s &&& 0x0F#8 = (nibbleSums 0x33#8 (pairCounts 0x55#8 v) >>> 4) &&& 0x0F#8) :
    (nibbleSums 0x33#8 (pairCounts 0x55#8 v) + s) &&& 0x0F#8 = lanePopcount v := by
  have hlow : s.toNat % 16 = (nibbleSums 0x33#8 (pairCounts 0x55#8 v)).toNat / 16 % 16 := by
    rw [← toNat_and_m0F, hs, toNat_and_m0F, toNat_ushiftRight_byte]
    rfl
  have hle := bitCount_le_eight v
  rw [bitCount_eq_sum_pairOnes] at hle
  apply BitVec.eq_of_toNat_eq
  rw [toNat_and_m0F, BitVec.toNat_add, Nat.mod_mod_of_dvd _ (by decide), Nat.add_mod, hlow,
    toNat_nibbleSums_pairCounts, low_nibble_add_high_nibble (by omega), toNat_lanePopcount, bitCount_eq_sum_pairOnes]
  omega

/-! ### The population count of a word -/

theorem lane_pairCounts (w : Word) (i : Fin 8) :
    lane (pairCounts Config.m55 w) i = pairCounts 0x55#8 (lane w i) := by
  have hupper (j : Fin 8) : lane ((w >>> 1) &&& Config.m55) j = (lane w j >>> 1) &&& 0x55#8 := by
    rw [lane_and, lane_m55, lane_ushiftRight_and (by decide)]
  rw [pairCounts, lane_sub (fun j => hupper j ▸ toNat_upper_bits_le _), hupper, pairCounts]

theorem lane_nibbleSums (w : Word) (i : Fin 8) :
    lane (nibbleSums Config.m33 w) i = nibbleSums 0x33#8 (lane w i) := by
  have hcarry (j : Fin 8) : (lane (w &&& Config.m33) j).toNat + (lane ((w >>> 2) &&& Config.m33) j).toNat < 256 := by
    rw [lane_and, lane_and, lane_m33]
    exact toNat_fields_add_lt _ _
  rw [nibbleSums, lane_add hcarry, lane_and, lane_and, lane_m33, lane_ushiftRight_and (by decide), nibbleSums]

/-- The nibbles of the second stage are at most 6, so bit 3 of each is 0. -/
theorem nibbleSums_and_m77 (t : Byte) : nibbleSums 0x33#8 t &&& 0x77#8 = nibbleSums 0x33#8 t := by decide +revert

theorem lane_and_le (a b : Word) (i : Fin 8) : (lane (a &&& b) i).toNat ≤ (lane b i).toNat := by
  rw [lane_and, BitVec.toNat_and]
  exact Nat.and_le_right

/-- The third stage carries out of no lane: no nibble of the second stage has bit 3, so none that is shifted in has. -/
theorem nibbleSums_add_shift_lt (w : Word) (i : Fin 8) :
    (lane (nibbleSums Config.m33 w) i).toNat + (lane (nibbleSums Config.m33 w >>> 4) i).toNat < 256 := by
  have hmask (j : Fin 8) : lane 0x7777777777777777#64 j = 0x77#8 := by fin_cases j <;> decide
  have hu : nibbleSums Config.m33 w &&& 0x7777777777777777#64 = nibbleSums Config.m33 w :=
    word_ext fun j => by rw [lane_and, hmask, lane_nibbleSums, nibbleSums_and_m77]
  have hshift : nibbleSums Config.m33 w >>> 4 = (nibbleSums Config.m33 w >>> 4) &&& 0x0777777777777777#64 := by
    conv_lhs => rw [← hu, BitVec.ushiftRight_and_distrib]
    rfl
  have hle : (lane 0x0777777777777777#64 i).toNat ≤ 0x77 := by decide +revert
  have hsums := lane_and_le (nibbleSums Config.m33 w) 0x7777777777777777#64 i
  have hshifted := lane_and_le (nibbleSums Config.m33 w >>> 4) 0x0777777777777777#64 i
  rw [hu, hmask] at hsums
  rw [← hshift] at hshifted
  exact (Nat.add_le_add hsums (hshifted.trans hle)).trans_lt (by decide)

theorem fPopcount_eq_formula (w : Word) : fPopcount w = popcountFormula w :=
  word_ext fun i => by
    have hshift : lane (nibbleSums Config.m33 (pairCounts Config.m55 w) >>> 4) i &&& 0x0F#8
        = (nibbleSums 0x33#8 (pairCounts 0x55#8 (lane w i)) >>> 4) &&& 0x0F#8 := by
      rw [lane_ushiftRight_and (by decide), lane_nibbleSums, lane_pairCounts]
    rw [popcountFormula_eq_stages, lane_and, lane_m0F, lane_add (nibbleSums_add_shift_lt _), lane_nibbleSums,
      lane_pairCounts, popcount_byte_formula hshift, lane_fPopcount]

/-- The bit numbers of a word are those of its lanes. -/
theorem range_64_eq_flatMap_lanes :
    List.range 64 = (List.finRange 8).flatMap fun i => (List.range 8).map (8 * i.val + ·) := by decide

theorem sum_bitCount_lanes (w : Word) :
    ((List.finRange 8).map fun i => bitCount (lane w i)).sum = (List.range 64).countP fun k => w.getLsbD k := by
  have hlane (i : Fin 8) :
      bitCount (lane w i) = ((List.range 8).map (8 * i.val + ·)).countP fun k => w.getLsbD k := by
    rw [bitCount, List.countP_map]
    refine List.countP_congr fun k hk => ?_
    rw [getLsbD_lane w i (List.mem_range.1 hk), Function.comp_apply]
  rw [range_64_eq_flatMap_lanes, List.countP_flatMap]
  simp only [hlane, Function.comp_def]

/-- Settles O49 (43_bitops.md R154). -/
theorem popcountFunction : Obligations.PopcountFunction := by
  intro w
  refine ⟨fun i => ⟨?count, ?bound⟩, fPopcount_eq_formula w, ?total,
    fun i => ⟨fun h => ?flag, fun h => ?noFlag⟩⟩
  all_goals simp only [lane_fPopcount, toNat_lanePopcount]
  case count => rfl
  case bound => exact bitCount_le_eight _
  case total => exact sum_bitCount_lanes w
  case flag => rw [h]; rfl
  case noFlag => rw [h]; rfl

end Sys2Proof.Machine
end

section
/-! Branchless selection (44_select.md R160, R161): the mask of the word formula as the `F_mask` of a flag word, the laws
through the meaning of the flag lanes, and the command `SEL`. -/

namespace Sys2Proof.Machine

/-! ### The selection mask -/

/-- Bit 0 of each flag lane, the other bits cleared. -/
theorem lane_and_lowBits (f : Word) (i : Fin 8) :
    lane (f &&& Config.lowBits) i = if lowFlag f i then 0x01#8 else 0x00#8 := by
  have hbit (b : Byte) : b &&& 0x01#8 = if b.getLsbD 0 then 0x01#8 else 0x00#8 := by decide +revert
  rw [lane_and, lane_lowBits, hbit, lowFlag]

/-- The high-bit flag word with the flags of the low-bit flag word `f` (10_state.md R24). -/
def highFlags (f : Word) : Word := mkword fun i => flagByte (lowFlag f i)

theorem lane_highFlags (f : Word) (i : Fin 8) : lane (highFlags f) i = flagByte (lowFlag f i) := lane_mkword _ i

/-- The mask of the formula of R160 is the one that R141 and R143 select by, after the conversion of the flags. -/
theorem flagMask_highFlags (f : Word) : flagMask (highFlags f) = (f &&& Config.lowBits) * 0xFF#64 := by
  have hshift : highFlags f >>> 7 = f &&& Config.lowBits :=
    word_ext fun i => by rw [lane_ushiftRight_seven (lane_highFlags f), lane_and_lowBits]
  rw [flagMask, hshift]

theorem fSelect_eq_formula (a b f : Word) : fSelect a b f = selectFormula a b f :=
  word_ext fun i => by
    rw [selectFormula, ← flagMask_highFlags, lane_select_flagMask (lane_highFlags f), lane_fSelect]

/-! ### The meaning of flag lanes -/

theorem lowFlag_lowBits (i : Fin 8) : lowFlag Config.lowBits i = true := by
  rw [lowFlag, lane_lowBits]
  rfl

theorem lowFlag_zero (i : Fin 8) : lowFlag 0#64 i = false := by
  rw [lowFlag, lane_zero]
  rfl

theorem lowFlag_xor_lowBits (f : Word) (i : Fin 8) : lowFlag (f ^^^ Config.lowBits) i = !lowFlag f i := by
  simp [lowFlag]

/-- `F_mask` turns a high-bit flag word into one that selects by the same flags. -/
theorem lowFlag_flagMask {f : Word} {p : Fin 8 → Bool} (h : ∀ i, lane f i = flagByte (p i)) (i : Fin 8) :
    lowFlag (flagMask f) i = p i := by
  rw [lowFlag, lane_flagMask h]
  cases p i <;> rfl

/-! ### The laws -/

/-- The minimum is the selection by `F_mask` of `F_less` (R160, from R141). -/
theorem fMin_eq_fSelect (a b : Word) : fMin a b = fSelect a b (flagMask (fLess a b)) :=
  word_ext fun i => by rw [lane_fMin, laneMin_eq_ite, lane_fSelect, lowFlag_flagMask (lane_fLess a b)]

/-- The maximum is the selection of the other operand by the same mask (R160, from R143). -/
theorem fMax_eq_fSelect (a b : Word) : fMax a b = fSelect b a (flagMask (fLess a b)) :=
  word_ext fun i => by rw [lane_fMax, laneMax_eq_ite, lane_fSelect, lowFlag_flagMask (lane_fLess a b)]

/-- Settles O50 (44_select.md R160): each law by what its flag word means in one lane. -/
theorem selectFunction : Obligations.SelectFunction := by
  refine ⟨fun a b f => ⟨lane_fSelect a b f, fSelect_eq_formula a b f, word_ext fun i => ?same, word_ext fun i => ?ones,
    word_ext fun i => ?zeros, word_ext fun i => ?exchange, fMin_eq_fSelect a b, fMax_eq_fSelect a b⟩, ?interleave⟩
  case interleave => decide
  all_goals simp only [lane_fSelect]
  case same => exact ite_self _
  case ones => exact if_pos (lowFlag_lowBits i)
  case zeros => rw [lowFlag_zero, if_neg Bool.false_ne_true]
  case exchange =>
    rw [lowFlag_xor_lowBits]
    cases lowFlag f i <;> rfl

/-! ### SEL -/

/-- Settles O55 (44_select.md R161): the word is the encoder's; the sources of the one write are those of the old
state. -/
theorem selectCommand : Obligations.SelectCommand := by
  refine ⟨fun rd ra rb rc => ?word, rejectsReserved_of_op .sel, fun rd ra rb rc s => completesWith_of_setReg rfl⟩
  simp only [Reg.ofNat_val_eq_field]
  exact decode_eq_ok_iff_encode_eq.2 ⟨rfl, rfl⟩

end Sys2Proof.Machine
end

section
/-! The set-bit table (45_lookup.md R165): the entries through the sequence of positions. -/

namespace Sys2Proof.Machine

/-! ### The positions of the ones -/

theorem mem_positionsOfSetBits {v : Byte} {k : Nat} : k ∈ positionsOfSetBits v ↔ k < 8 ∧ v.getLsbD k = true := by
  rw [positionsOfSetBits, List.mem_filter, List.mem_range]

theorem pairwise_lt_positionsOfSetBits (v : Byte) : (positionsOfSetBits v).Pairwise (· < ·) :=
  List.pairwise_lt_range.filter _

theorem length_positionsOfSetBits (v : Byte) : (positionsOfSetBits v).length = bitCount v :=
  List.countP_eq_length_filter.symm

theorem length_positionsOfSetBits_le (v : Byte) : (positionsOfSetBits v).length ≤ 8 :=
  (length_positionsOfSetBits v).trans_le (bitCount_le_eight v)

theorem getElem_positionsOfSetBits_lt {v : Byte} {k : Nat} (h : k < (positionsOfSetBits v).length) :
    (positionsOfSetBits v)[k] < 8 :=
  (mem_positionsOfSetBits.1 (List.getElem_mem h)).1

/-! ### The entries -/

/-- A position is below 8, so the lane that holds it loses nothing of it. -/
theorem toNat_lane_sbt {v : Byte} {k : Fin 8} (h : k.val < (positionsOfSetBits v).length) :
    (lane (sbt v) k).toNat = (positionsOfSetBits v)[k.val] := by
  rw [sbt, lane_mkword, List.getElem?_eq_getElem h]
  exact toNat_ofNat_byte ((getElem_positionsOfSetBits_lt h).trans (by decide))

theorem lane_sbt_of_length_le {v : Byte} {k : Fin 8} (h : (positionsOfSetBits v).length ≤ k.val) :
    lane (sbt v) k = Config.sbtFill := by
  rw [sbt, lane_mkword, List.getElem?_eq_none h]

/-- The filler is no position, so the lanes below 8 are those that hold one. -/
theorem toNat_lane_sbt_lt_eight_iff (v : Byte) (k : Fin 8) :
    (lane (sbt v) k).toNat < 8 ↔ k.val < (positionsOfSetBits v).length := by
  rcases lt_or_ge k.val (positionsOfSetBits v).length with h | h
  · rw [toNat_lane_sbt h]
    exact iff_of_true (getElem_positionsOfSetBits_lt h) h
  · rw [lane_sbt_of_length_le h]
    exact iff_of_false (by decide) h.not_gt

theorem countP_finRange_val_lt {n : Nat} (h : n ≤ 8) : (List.finRange 8).countP (fun k => k.val < n) = n := by
  interval_cases n <;> rfl

/-- The appendix against the definition, entry by entry. -/
theorem getElem?_sbtTable : ∀ v : Byte, Config.sbtTable[v.toNat]? = some (sbt v) := by decide

/-- Settles O51 (45_lookup.md R165). -/
theorem setBitTable : Obligations.SetBitTable := by
  refine ⟨fun v k => mem_positionsOfSetBits, pairwise_lt_positionsOfSetBits, fun v => ?length, fun v k h => ?positions,
    fun v k h => lane_sbt_of_length_le h, fun v => ?count, ?none, ?all, ?two, getElem?_sbtTable⟩
  case length => rw [length_positionsOfSetBits, toNat_lanePopcount]
  case positions => rw [toNat_lane_sbt h, List.getElem?_eq_getElem h]
  case count =>
    simp only [toNat_lane_sbt_lt_eight_iff]
    exact countP_finRange_val_lt (length_positionsOfSetBits_le v)
  case none | all | two => rfl

end Sys2Proof.Machine
end

section
/-! The gather of the low bits (45_lookup.md R167, R168): the byte by its bits and by its value, and the multiplication
that makes the same value without a carry. -/

namespace Sys2Proof.Machine

/-! ### The gathered byte -/

/-- Lane 0 comes first of the eight bits, as the top bit. -/
theorem getLsbD_fGather (w : Word) (i : Fin 8) : (fGather w).getLsbD (7 - i.val) = lowFlag w i := by
  unfold fGather lowFlag
  fin_cases i <;> simp only [BitVec.getLsbD_append, BitVec.getLsbD_extractLsb'] <;> rfl

theorem toNat_extractLsb'_zero_one (b : Byte) : (b.extractLsb' 0 1).toNat = (b.getLsbD 0).toNat := by
  rw [BitVec.extractLsb'_toNat, Nat.shiftRight_zero, pow_one, BitVec.getLsbD, Nat.toNat_testBit, pow_zero, Nat.div_one]

/-- The sum of R167. The seven appends give Horner's form of it, which `ring` multiplies out. -/
theorem toNat_fGather (w : Word) : (fGather w).toNat = ∑ i : Fin 8, (lowFlag w i).toNat * 2 ^ (7 - i.val) := by
  rw [Fin.sum_univ_eight]
  simp only [fGather, lowFlag, toNat_append_eq_add, toNat_extractLsb'_zero_one, Fin.coe_ofNat_eq_mod, Nat.reduceMod,
    Nat.reduceSub]
  ring

/-- The lane of a position is recovered as `7 - p` (R167). -/
theorem mem_positionsOfSetBits_fGather {w : Word} {p : Nat} :
    p ∈ positionsOfSetBits (fGather w) ↔ ∃ i : Fin 8, p = 7 - i.val ∧ lowFlag w i = true := by
  rw [mem_positionsOfSetBits]
  constructor
  · rintro ⟨hp, hbit⟩
    have hback : p = 7 - (7 - p) := by omega
    refine ⟨⟨7 - p, by omega⟩, hback, ?_⟩
    rwa [← getLsbD_fGather, ← hback]
  · rintro ⟨i, rfl, hflag⟩
    exact ⟨by omega, (getLsbD_fGather w i).trans hflag⟩

/-! ### The gather multiplication -/

theorem toNat_and_lowBits (w : Word) :
    (w &&& Config.lowBits).toNat = ∑ i : Fin 8, (lowFlag w i).toNat * 2 ^ (8 * i.val) := by
  have hlane (i : Fin 8) : (lane (w &&& Config.lowBits) i).toNat = (lowFlag w i).toNat := by
    rw [lane_and_lowBits]
    cases lowFlag w i <;> rfl
  simp only [toNat_eq_sum_lanes (w &&& Config.lowBits), hlane, Fin.sum_univ_def]

/-- The copies of lane `i`'s flag that `GATHER_MUL` makes above bit 63, in units of `2 ^ 64`. -/
def gatherAbove (i : Fin 8) : Nat := Config.gatherMul.toNat / 2 ^ (64 - 8 * i.val)

/-- The copies of lane `i`'s flag that `GATHER_MUL` makes below bit 56. -/
def gatherBelow (i : Fin 8) : Nat := 2 ^ (8 * i.val) * (Config.gatherMul.toNat % 2 ^ (56 - 8 * i.val))

/-- The copies lie at the bits `8i + 9k`; the only one in the top byte of the word is that of `k = 7 - i`, at bit
`7 - i` of the byte (R168). -/
theorem shifted_gatherMul (i : Fin 8) : 2 ^ (8 * i.val) * Config.gatherMul.toNat =
    2 ^ 64 * gatherAbove i + 2 ^ 56 * 2 ^ (7 - i.val) + gatherBelow i := by decide +revert

theorem sum_flags_mul_le (f : Fin 8 → Bool) (c : Fin 8 → Nat) : ∑ i, (f i).toNat * c i ≤ ∑ i, c i :=
  Finset.sum_le_sum fun i _ => mul_le_of_le_one_left (Nat.zero_le _) (Bool.toNat_le (f i))

/-- Even with every flag set the copies below bit 56 sum to less than `2 ^ 56`, so they carry nothing into the top
byte; those above bit 63 are dropped. -/
theorem gatherMul_top_byte (f : Fin 8 → Bool) :
    (∑ i : Fin 8, (f i).toNat * 2 ^ (8 * i.val)) * Config.gatherMul.toNat % 2 ^ 64 / 2 ^ 56 =
      ∑ i : Fin 8, (f i).toNat * 2 ^ (7 - i.val) := by
  have hproduct : (∑ i : Fin 8, (f i).toNat * 2 ^ (8 * i.val)) * Config.gatherMul.toNat =
      2 ^ 64 * (∑ i, (f i).toNat * gatherAbove i) + 2 ^ 56 * (∑ i : Fin 8, (f i).toNat * 2 ^ (7 - i.val)) +
        ∑ i, (f i).toNat * gatherBelow i := by
    simp only [Finset.sum_mul, Finset.mul_sum, ← Finset.sum_add_distrib, mul_assoc, shifted_gatherMul, mul_add,
      mul_left_comm]
  have hbelow : ∑ i, (f i).toNat * gatherBelow i < 2 ^ 56 := (sum_flags_mul_le f _).trans_lt (by decide)
  have htop : ∑ i : Fin 8, (f i).toNat * 2 ^ (7 - i.val) < 2 ^ 8 := (sum_flags_mul_le f _).trans_lt (by decide)
  omega

theorem fGather_eq_formula (w : Word) : fGather w = gatherFormula w := by
  apply BitVec.eq_of_toNat_eq
  rw [gatherFormula, BitVec.toNat_setWidth, BitVec.toNat_ushiftRight, BitVec.toNat_mul, toNat_and_lowBits,
    Nat.shiftRight_eq_div_pow, gatherMul_top_byte, ← toNat_fGather, Nat.mod_eq_of_lt (fGather w).isLt]

/-- Settles O52 (45_lookup.md R167, R168). -/
theorem gatherFunction : Obligations.GatherFunction := by
  refine ⟨getLsbD_fGather, fGather_eq_formula, fun w p => mem_positionsOfSetBits_fGather, ?zero, ?ones, ?high, ?lane0,
    ?lane7⟩
  case zero | ones | high | lane0 | lane7 => decide

end Sys2Proof.Machine
end

section
/-! The system commands (46_system.md R176 to R179): the words of the two C formats with the order of their faults, and
what `NOP`, `END`, `RDC` and `WRC` change. -/

namespace Sys2Proof.Machine

/-! ### Words of RDC and WRC -/

/-- Past the first two checks of 30_encoding.md R73 the operands decide. -/
theorem decode_eq_operands {w : Cmd} {o : Op} (hop : opField w = o.code) (hres : w &&& o.format.reserved = 0#32) :
    decode w = o.operands w := by
  rw [decode_of_opcode hop, if_pos hres]

/-- The word of a well-formed `WRC` decodes to it. -/
theorem decode_wrc_word {c : Csr} {v : BitVec 9} (hcsr : c.writable = true) (hv : v.toNat ≤ c.maxWrite) :
    decode (0x04#6 ++ 0#5 ++ c.number ++ 0#7 ++ v) = .ok (.wrc c v) := by
  have hwf : (Instr.wrc c v).wellFormed = true := by simp [Instr.wellFormed, hcsr, hv]
  exact decode_eq_ok_iff_encode_eq.2 ⟨rfl, hwf⟩

/-- A word of `WRC` with clear must-be-zero bits faults on its register number and then on its value (46_system.md
R179). -/
theorem decode_wrc_faults {w : Cmd} (hop : opField w = Op.wrc.code) (hres : w &&& Op.wrc.format.reserved = 0#32) :
    (1 < (raField w).toNat → decode w = .error .illegalCsr) ∧
      ((raField w).toNat = 0 → 263 < (imm9Field w).toNat → decode w = .error .csrRange) ∧
      ((raField w).toNat = 1 → 32 < (imm9Field w).toNat → decode w = .error .csrRange) := by
  have hdec : decode w = decodeWrc w := decode_eq_operands hop hres
  rw [hdec]
  refine ⟨decodeWrc_of_readOnly, fun hblen hval => ?_, fun hlcnt hval => ?_⟩
  · rw [decodeWrc_of_blen hblen, if_neg (not_le.2 hval)]
  · rw [decodeWrc_of_lcnt hlcnt, if_neg (not_le.2 hval)]

/-! ### NOP and END -/

/-- Settles O56 (46_system.md R176, R177): the states after the two commands are `s` with `CP` advanced and `s` with
`STATE = DONE`. -/
theorem nopAndEndCommands : Obligations.NopAndEndCommands := by
  refine ⟨hasFormatZ_of_encode (o := .nop) rfl ⟨rfl, rfl⟩, hasFormatZ_of_encode (o := .endRun) rfl ⟨rfl, rfl⟩,
    fun s => ⟨s.advance, rfl, ?nop⟩, fun s => ⟨{ s with state := .done }, rfl, ?endRun⟩⟩
  case nop => exact ⟨fun _ => rfl, fun _ => rfl, ⟨rfl, rfl, rfl⟩, rfl, ⟨rfl, rfl, rfl⟩, rfl, rfl⟩
  case endRun => exact ⟨rfl, rfl, fun _ => rfl, fun _ => rfl, ⟨rfl, rfl, rfl⟩, ⟨rfl, rfl, rfl⟩, rfl, rfl⟩

/-! ### RDC -/

/-- `RDC` completes with whatever value the control register reads as. -/
theorem completesWith_rdc (rd : Reg) {c : Csr} {s : State} {v : Word} (h : s.csr c = v) :
    CompletesWith (.rdc rd c) rd v s :=
  h ▸ completesWith_of_setReg rfl

/-- The seven values of `RDC` as numbers below `2 ^ 64` (10_state.md R36). -/
theorem State.csr_eq_ofNat (s : State) :
    s.csr .blen = BitVec.ofNat 64 s.blen.toNat ∧ s.csr .lcnt = BitVec.ofNat 64 s.lcnt.toNat ∧
      s.csr .consumed = BitVec.ofNat 64 s.consumed.toNat ∧ s.csr .state = BitVec.ofNat 64 s.state.code.toNat ∧
      s.csr .cause = BitVec.ofNat 64 (causeCode s.cause).toNat ∧ s.csr .fcp = BitVec.ofNat 64 s.fcp.toNat ∧
      s.csr .fcmd = BitVec.ofNat 64 s.fcmd.toNat := by
  simp only [State.csr, BitVec.ofNat_toNat, and_self]

/-- Inside a run `STATE` reads 1 and no fault is recorded (46_system.md R178). -/
theorem Invariant.csr_of_run {s : State} (h : Invariant s) (hrun : s.state = .run) :
    s.csr .state = 1#64 ∧ s.csr .cause = 0#64 ∧ s.csr .fcp = 0#64 ∧ s.csr .fcmd = 0#64 := by
  obtain ⟨hcause, hfcp, hfcmd⟩ := h.noFault_of_run hrun
  simp [State.csr, hrun, hcause, hfcp, hfcmd, RunState.code, causeCode]

/-- Settles O57 (46_system.md R178). -/
theorem readControlCommand : Obligations.ReadControlCommand := by
  refine ⟨fun rd c => ?word, rejectsReserved_of_op .rdc, fun w hop hres hnum => ?number, rfl, fun rd s => ?values,
    fun rd s h hrun => ?inRun⟩
  case word =>
    rw [Reg.ofNat_val_eq_field]
    exact decode_eq_ok_iff_encode_eq.2 ⟨rfl, rfl⟩
  case number => exact (decode_eq_operands (o := .rdc) hop hres).trans (decodeRdc_of_illegal hnum)
  case values =>
    obtain ⟨hblen, hlcnt, hconsumed, hstate, hcause, hfcp, hfcmd⟩ := s.csr_eq_ofNat
    exact ⟨completesWith_rdc rd hblen, completesWith_rdc rd hlcnt, completesWith_rdc rd hconsumed,
      completesWith_rdc rd hstate, completesWith_rdc rd hcause, completesWith_rdc rd hfcp, completesWith_rdc rd hfcmd⟩
  case inRun =>
    obtain ⟨hstate, hcause, hfcp, hfcmd⟩ := h.csr_of_run hrun
    exact ⟨completesWith_rdc rd hstate, completesWith_rdc rd hcause, completesWith_rdc rd hfcp,
      completesWith_rdc rd hfcmd⟩

/-! ### WRC -/

/-- The writes of the two `WRC` commands, at any values: the fields after them, and all that they leave. -/
theorem retire_lengthWrites (s : State) (blen : BitVec 9) (lcnt : BitVec 6) :
    ∃ t, retire { s with blen := blen, lcnt := lcnt } = .next t ∧ t.blen = blen ∧ t.lcnt = lcnt ∧
      t.consumed = s.consumed ∧ SameRegs s t ∧ SameBuf s t ∧ Advances s t :=
  ⟨_, rfl, rfl, rfl, rfl, fun _ => rfl, fun _ => rfl, rfl, ⟨rfl, rfl, rfl⟩, rfl, rfl⟩

theorem exec_wrc_blen {v : BitVec 9} (hv : v.toNat ≤ 263) (s : State) :
    exec (.wrc .blen v) s = retire { s with blen := v } := if_pos hv

theorem exec_wrc_lcnt {v : BitVec 9} (hv : v.toNat ≤ 32) (s : State) :
    exec (.wrc .lcnt v) s = retire { s with lcnt := v.setWidth 6 } := if_pos hv

/-- A legal count fits the 6 bits of `LCNT` (10_state.md R29). -/
theorem toNat_setWidth_lcnt {v : BitVec 9} (hv : v.toNat ≤ 32) : (v.setWidth 6).toNat = v.toNat := by
  rw [BitVec.toNat_setWidth]
  omega

/-- Settles O58 (46_system.md R179). -/
theorem writeControlCommand : Obligations.WriteControlCommand := by
  refine ⟨fun v hv => decode_wrc_word (c := .blen) rfl hv, fun v hv => decode_wrc_word (c := .lcnt) rfl hv,
    rejectsReserved_of_op .wrc, fun w hop hres => decode_wrc_faults hop hres, fun v s hv => ?blen,
    fun v s hv => ?lcnt, fun s w c hrun hfetch _ hdec => step_faultsWith_of_decode_error hrun hfetch hdec⟩
  case blen =>
    rw [exec_wrc_blen hv]
    exact retire_lengthWrites s v s.lcnt
  case lcnt =>
    obtain ⟨t, hretire, hblen, hlcnt, hrest⟩ := retire_lengthWrites s s.blen (v.setWidth 6)
    rw [exec_wrc_lcnt hv]
    exact ⟨t, hretire, by rw [hlcnt, toNat_setWidth_lcnt hv], hblen, hrest⟩

end Sys2Proof.Machine
end

section
/-! Data and control (00_scope.md R14, 70_reset_and_hazards.md R226): the contents of registers and buffer reach no
control state. -/

namespace Sys2Proof.Machine

/-- The states of one control part are one state with other contents of `x` and `BUF`. -/
theorem sameControl_iff {s t : State} : SameControl s t ↔ ∃ x buf, t = { s with x := x, buf := buf } := by
  constructor
  · rintro ⟨hblen, hlcnt, hconsumed, hstate, hcause, hfcp, hfcmd, hcp, hprog⟩
    refine ⟨t.x, t.buf, ?_⟩
    rw [← hblen, ← hlcnt, ← hconsumed, ← hstate, ← hcause, ← hfcp, ← hfcmd, ← hcp, ← hprog]
  · rintro ⟨x, buf, rfl⟩
    exact ⟨rfl, rfl, rfl, rfl, rfl, rfl, rfl, rfl, rfl⟩

theorem SameControl.setReg {s t : State} (h : SameControl s t) (r : Reg) (v w : Word) :
    SameControl (s.setReg r v) (t.setReg r w) := h

theorem SameControl.storeGroup {s t : State} (h : SameControl s t) (a : Nat) (v w : Word) :
    SameControl (s.storeGroup a v) (t.storeGroup a w) := h

theorem SameControl.advance {s t : State} (h : SameControl s t) : SameControl s.advance t.advance := by
  obtain ⟨x, buf, rfl⟩ := sameControl_iff.1 h
  exact sameControl_iff.2 ⟨x, buf, rfl⟩

theorem SameControl.raiseFault {s t : State} (h : SameControl s t) (c : Cause) (w : Cmd) :
    SameControl (raiseFault c w s) (raiseFault c w t) := by
  obtain ⟨x, buf, rfl⟩ := sameControl_iff.1 h
  exact sameControl_iff.2 ⟨x, buf, rfl⟩

/-- The two results of `ControlIgnoresData`: both next states agree on the control part, or both stop alike. -/
def SameOutcome (p q : Result) : Prop :=
  (∃ s t, p = .next s ∧ q = .next t ∧ SameControl s t) ∨ (∃ r, p = .fault r ∧ q = .fault r)

theorem SameOutcome.fault (r : Fault) : SameOutcome (.fault r) (.fault r) := .inr ⟨r, rfl, rfl⟩

theorem SameControl.retire {s t : State} (h : SameControl s t) : SameOutcome (retire s) (retire t) :=
  .inl ⟨s.advance, t.advance, rfl, rfl, h.advance⟩

theorem SameControl.trap {s t : State} (h : SameControl s t) (c : Cause) (w : Cmd) :
    SameOutcome (trap c w s) (trap c w t) :=
  .inl ⟨_, _, rfl, rfl, h.raiseFault c w⟩

theorem SameOutcome.ite {c : Prop} [Decidable c] {p p' q q' : Result} (hp : SameOutcome p p')
    (hq : SameOutcome q q') : SameOutcome (if c then p else q) (if c then p' else q') := by
  split_ifs
  · exact hp
  · exact hq

/-- `WRC` is guarded by its own operand (46_system.md R179). -/
theorem execWrc_sameOutcome {s t : State} (h : SameControl s t) (csr : Csr) (imm9 : BitVec 9) :
    SameOutcome (execWrc csr imm9 s) (execWrc csr imm9 t) := by
  have htrap := h.trap
  obtain ⟨hblen, hlcnt, hrest⟩ := h
  cases csr with
  | blen => exact .ite (SameControl.retire ⟨rfl, hlcnt, hrest⟩) (htrap _ _)
  | lcnt => exact .ite (SameControl.retire ⟨hblen, rfl, hrest⟩) (htrap _ _)
  | consumed | state | cause | fcp | fcmd => exact htrap _ _

/-- A command does the same to the control part whatever the data: `PACK` and `UNPACK` are guarded by a length, and a
register write is none of the control part. -/
theorem exec_sameOutcome {s t : State} (h : SameControl s t) (i : Instr) : SameOutcome (exec i s) (exec i t) := by
  cases i with
  | nop => exact h.retire
  | endRun =>
    obtain ⟨hblen, hlcnt, hconsumed, -, hrest⟩ := h
    exact .inl ⟨_, _, rfl, rfl, hblen, hlcnt, hconsumed, rfl, hrest⟩
  | wrc csr imm9 => exact execWrc_sameOutcome h csr imm9
  | pack =>
    obtain ⟨x, buf, rfl⟩ := sameControl_iff.1 h
    exact .ite (SameControl.retire (sameControl_iff.2 ⟨_, buf, rfl⟩)) (.fault _)
  | unpack =>
    obtain ⟨x, buf, rfl⟩ := sameControl_iff.1 h
    exact .ite (SameControl.retire (sameControl_iff.2 ⟨x, _, rfl⟩)) (.fault _)
  | stl rs imm8 => exact (h.storeGroup _ _ _).retire
  | _ => exact (h.setReg _ _ _).retire

/-- Settles O23 (70_reset_and_hazards.md R226, 00_scope.md R14): the branches of `step` are taken on `STATE`, the fetch
and the word, which the two states share. -/
theorem controlIgnoresData : Obligations.ControlIgnoresData := by
  intro s t h
  obtain ⟨hstate, hfetch⟩ : t.state = s.state ∧ fetch t = fetch s := by
    obtain ⟨x, buf, rfl⟩ := sameControl_iff.1 h
    exact ⟨rfl, rfl⟩
  change SameOutcome (step s) (step t)
  rw [step, step, hstate, hfetch]
  cases s.state with
  | idle | done | fault => exact .fault _
  | run =>
    cases fetch s with
    | none => exact h.trap _ _
    | some w =>
      cases hdec : decode w with
      | error c => simpa only [hdec] using h.trap c w
      | ok i => simpa only [hdec] using exec_sameOutcome h i

end Sys2Proof.Machine
end

section
/-! The faults of the unit (60_exceptions.md R186 to R198): malformed words and the overrun take theirs, a step into
`FAULT` is fault entry and nothing more, and only reset leads out. -/

namespace Sys2Proof

/-- Every command has must-be-zero bits (60_exceptions.md R188): the word of its opcode with all of them set. -/
theorem Op.pattern_or_reserved (o : Op) : opField (o.pattern ||| o.format.reserved) = o.code ∧
    (o.pattern ||| o.format.reserved) &&& o.format.reserved ≠ 0#32 := by
  cases o <;> decide

namespace Machine

/-! ### Taking a fault -/

/-- Settles O7 (70_reset_and_hazards.md R218). -/
theorem stepRunsDecodedCommand : Obligations.StepRunsDecodedCommand :=
  fun _ _ _ => step_of_decode_ok

/-- Settles O8 (60_exceptions.md R187 to R190), by the cause the decoder answers for each kind of word. -/
theorem malformedWordsTrap : Obligations.MalformedWordsTrap := by
  refine ⟨rfl, fun o => ⟨_, o.pattern_or_reserved⟩, fun s w hrun hfetch => ?_⟩
  have htrap (c : Cause) (hdec : decode w = .error c) : ∃ t, step s = .next t ∧ FaultsWith c w s t :=
    step_faultsWith_of_decode_error hrun hfetch hdec
  refine ⟨fun hop => htrap _ (decode_of_unassigned hop), ?reserved, ?number, ?range⟩
  case reserved =>
    rintro ⟨o, hop, hres⟩
    exact htrap _ (by rw [decode_of_opcode hop, if_neg hres])
  case number =>
    rintro (⟨hop, hres, hnum⟩ | ⟨hop, hres, hnum⟩)
    · exact htrap _ ((decode_eq_operands (o := .rdc) hop hres).trans (decodeRdc_of_illegal hnum))
    · obtain ⟨hreadOnly, -⟩ := decode_wrc_faults hop hres
      exact htrap _ (hreadOnly hnum)
  case range =>
    rintro ⟨hop, hres, hval⟩
    obtain ⟨-, hblen, hlcnt⟩ := decode_wrc_faults hop hres
    obtain ⟨hnum, hval⟩ | ⟨hnum, hval⟩ := hval
    · exact htrap _ (hblen hnum hval)
    · exact htrap _ (hlcnt hnum hval)

/-- Settles O9 (60_exceptions.md R191). -/
theorem fetchOverrunTraps : Obligations.FetchOverrunTraps :=
  fun s hrun hcp => ⟨_, step_of_overrun hrun hcp.ge, faultsWith_raiseFault .fetchOverrun 0#32 s, hcp⟩

/-- Settles O10 (60_exceptions.md R195). -/
theorem faultEntryLatchesAndStops : Obligations.FaultEntryLatchesAndStops :=
  fun c w s => ⟨faultsWith_raiseFault c w s, rfl, rfl⟩

/-! ### In FAULT -/

/-- No legal command enters `FAULT`. -/
theorem exec_state_ne_fault {i : Instr} {s t : State} (hwf : i.wellFormed = true) (hrun : s.state = .run)
    (hexec : exec i s = .next t) : t.state ≠ .fault := by
  intro hfault
  obtain ⟨-, -, -, -, -, hstate⟩ := controlRegistersHaveTheirWriters i s t hwf hexec
  obtain ⟨-, hdone⟩ := hstate (by simp [hrun, hfault])
  cases hfault.symm.trans hdone

/-- Settles O11 (60_exceptions.md R196): of what a step can have been, only the two fault entries end in `FAULT`. -/
theorem faultsArePrecise : Obligations.FaultsArePrecise := by
  intro s t hrun hstep hfault
  obtain ⟨-, ⟨-, rfl⟩ | ⟨w, c, -, hdec, rfl⟩ | ⟨w, i, -, hdec, hexec⟩⟩ := step_cases hstep
  · exact ⟨nofun, faultsWith_raiseFault _ _ s⟩
  · obtain ⟨hnone, -⟩ := decode_cause hdec
    exact ⟨hnone, faultsWith_raiseFault _ _ s⟩
  · exact absurd hfault (exec_state_ne_fault (decode_wellFormed hdec) hrun hexec)

/-- `start` has no effect in `RUN` and in `FAULT` (70_reset_and_hazards.md R218). -/
theorem startRun_eq_self {s : State} (h : s.state = .run ∨ s.state = .fault) : startRun s = s := by
  obtain h | h := h <;> rw [startRun, h]

/-- `start` in `IDLE` and in `DONE` (70_reset_and_hazards.md R218). -/
theorem startRun_eq_run {s : State} (h : s.state = .idle ∨ s.state = .done) :
    startRun s = { s with cp := 0#16, state := .run } := by
  obtain h | h := h <;> rw [startRun, h]

/-- Settles O12 (60_exceptions.md R197): in `FAULT` the unit has no step and the host may not write. -/
theorem onlyResetLeavesFault : Obligations.OnlyResetLeavesFault := by
  refine ⟨fun e s t hfault h => ?only, fun s hfault => ⟨?noStep, ?start, fun v b => ⟨_, rfl, rfl⟩⟩⟩
  case noStep => rw [step, hfault]
  case start => rw [hostAct, startRun_eq_self (.inr hfault)]
  case only =>
    cases e with
    | unit =>
      obtain ⟨hrun, -⟩ := step_cases h
      cases hfault.symm.trans hrun
    | host a =>
      cases hostAct_effect h with
      | reset v b => exact .inl ⟨v, b, rfl⟩
      | start => exact .inr (startRun_eq_self (.inr hfault))
      | loadProg _ hs | writeReg _ _ hs | writeBuf _ _ hs | writeBlen _ hs | writeLcnt _ hs =>
        rw [hfault] at hs
        cases hs

/-- Settles O16 (70_reset_and_hazards.md R210): outside `RUN` the unit has no step, so only `start` leads into it. -/
theorem resetLeavesControlStateZero : Obligations.ResetLeavesControlStateZero := by
  refine ⟨fun s v b => ?reset, fun e s t hfault h hne => ?leaves, fun e s t hne h hrun => ?begins⟩
  case reset =>
    exact ⟨State.resetWith v (Memory.ofBytes b), rfl, rfl, rfl, rfl, rfl, rfl, rfl, rfl, rfl, fun _ => rfl,
      Memory.read_ofBytes b⟩
  case leaves =>
    obtain hreset | rfl := onlyResetLeavesFault.1 e s t hfault h
    · exact hreset
    · exact absurd hfault hne
  case begins =>
    cases e with
    | unit => exact absurd (step_cases h).1 hne
    | host a =>
      obtain ⟨-, hidle⟩ | ⟨rfl, hs, -⟩ := hostAct_state h (hrun ▸ hne.symm)
      · cases hrun.symm.trans hidle
      · cases hostAct_effect (a := .start) h
        exact ⟨rfl, by rw [startRun_eq_run hs]⟩

end Machine
end Sys2Proof
end

section
/-! The host's actions and reads (70_reset_and_hazards.md R216 to R219). -/

namespace Sys2Proof.Machine

/-! ### Where the host may act -/

theorem hostMayWrite_iff {r : RunState} : r.hostMayWrite = true ↔ r = .idle ∨ r = .done := by
  cases r <;> decide

theorem hostMayRead_iff {r : RunState} : r.hostMayRead = true ↔ r ≠ .run := by
  cases r <;> decide

theorem hostWrite_of_allowed {s : State} (h : s.state = .idle ∨ s.state = .done) (effect : Result) :
    hostWrite s effect = effect := if_pos (hostMayWrite_iff.2 h)

theorem hostWrite_of_run {s : State} (h : s.state = .run) (effect : Result) :
    hostWrite s effect = .refused .hostWrongState := by
  rw [hostWrite, h, RunState.hostMayWrite, if_neg nofun]

/-! ### Effects -/

/-- Settles O59 (70_reset_and_hazards.md R210, R216 to R219): the state allows the action, then its argument is within
the range the statement asks, and what is left is one field written. -/
theorem hostActionsHaveTheirEffects : Obligations.HostActionsHaveTheirEffects := by
  refine ⟨fun s hs => ⟨fun words hw => ?loadProg, fun r v => ?writeReg, fun a b ha hwf => ?writeBuf,
    fun v hv => ?writeBlen, fun v hv => ?writeLcnt⟩, fun s hs => ?reads, fun a s hrun hstart hreset => ?refused,
    fun s hrun => ⟨?start, fun r => ?noRead, fun _ _ => rfl⟩⟩
  case loadProg => exact (hostWrite_of_allowed hs _).trans (if_pos (decide_eq_true hw))
  case writeReg =>
    exact ⟨s.setReg r v, hostWrite_of_allowed hs _, s.reg_setReg_same r v, fun q => s.reg_setReg_of_ne v,
      fun _ => rfl, sameControl_iff.2 ⟨_, _, rfl⟩⟩
  case writeBuf =>
    refine ⟨{ s with buf := s.buf.write a b }, ?_, ?_, fun c hc => ?_, fun _ => rfl,
      sameControl_iff.2 ⟨_, _, rfl⟩⟩
    · exact (hostWrite_of_allowed hs _).trans (if_pos (Nat.lt_succ_of_le ha))
    · exact (Memory.read_write hwf a a b).trans (if_pos rfl)
    · exact (Memory.read_write hwf a c b).trans (if_neg hc)
  case writeBlen | writeLcnt => exact (hostWrite_of_allowed hs _).trans (if_pos hv)
  case reads =>
    have hread := hostMayRead_iff.2 hs
    exact ⟨fun _ => if_pos hread, fun a ha => (if_pos hread).trans (if_pos (Nat.lt_succ_of_le ha)),
      fun _ => if_pos hread, if_pos hread⟩
  case refused =>
    cases a with
    | reset v b => exact absurd rfl (hreset v b)
    | start => exact absurd rfl hstart
    | loadProg | writeReg | writeBuf | writeCsr => exact hostWrite_of_run hrun _
  case start => rw [hostAct, startRun_eq_self (.inl hrun)]
  case noRead => exact if_neg fun hread => hostMayRead_iff.1 hread hrun

/-! ### The invariant -/

/-- Outside `FAULT` no fault is recorded (60_exceptions.md R197). -/
theorem Invariant.noFault_of_ne_fault {s : State} (h : Invariant s) (hne : s.state ≠ .fault) :
    s.cause = .none ∧ s.fcp = 0#16 ∧ s.fcmd = 0#32 := by
  have hcause : s.cause = .none := not_not.1 fun hc => hne (h.cause_iff.1 hc)
  exact ⟨hcause, h.no_fault hcause⟩

/-- A run begins with `CP` within any stream and no fault recorded (70_reset_and_hazards.md R218). -/
theorem invariant_startRun {s : State} (h : Invariant s) : Invariant (startRun s) := by
  by_cases hs : s.state = .run ∨ s.state = .fault
  · rwa [startRun_eq_self hs]
  · have hs' : s.state = .idle ∨ s.state = .done := by
      cases hstate : s.state <;> simp [hstate] at hs ⊢
    obtain ⟨hcause, -⟩ := h.noFault_of_ne_fault fun hf => hs (.inr hf)
    rw [startRun_eq_run hs']
    exact { h with
      cp_le := fun _ => Nat.zero_le _
      cause_iff := ⟨fun hc => absurd hcause hc, nofun⟩
      fault_cp := nofun }

/-- A stream of legal length may be loaded where no run is at a `CP` and no fault is recorded: the clauses that speak
of `NCMD` ask nothing there. -/
theorem invariant_loadProg {s : State} (h : Invariant s) (hs : s.state = .idle ∨ s.state = .done) {words : List Cmd}
    (hw : words.length ≤ Config.cmdCap) : Invariant { s with prog := words } := by
  have hrun : s.state ≠ .run := by obtain hs | hs := hs <;> simp [hs]
  have hfault : s.state ≠ .fault := by obtain hs | hs := hs <;> simp [hs]
  obtain ⟨hcause, -⟩ := h.noFault_of_ne_fault hfault
  exact { h with
    prog_le := hw
    cp_le := fun hcp => absurd hcp (not_or.2 ⟨hrun, hfault⟩)
    overrun := fun hover => absurd (hcause.symm.trans hover) nofun }

/-- A register narrows what the host writes, if anything. -/
theorem toNat_ofNat_le (n v : Nat) : (BitVec.ofNat n v).toNat ≤ v := by
  rw [BitVec.toNat_ofNat]
  exact Nat.mod_le _ _

/-- Settles O19 (70_reset_and_hazards.md R216, R217): the ranges of R216 are the bounds the invariant asks. -/
theorem hostActionKeepsInvariant : Obligations.HostActionKeepsInvariant := by
  intro a s t h hact
  cases hostAct_effect hact with
  | reset v b => exact invariant_resetWith v (Memory.wf_ofBytes b)
  | start => exact invariant_startRun h
  | loadProg words hs hw => exact invariant_loadProg h (hostMayWrite_iff.1 hs) (of_decide_eq_true hw)
  | writeReg r v => exact { h with }
  | writeBuf a b hs ha => exact { h with buf_wf := Memory.wf_write h.buf_wf b ha }
  | writeBlen v hs hv => exact { h with blen_le := (toNat_ofNat_le _ _).trans hv }
  | writeLcnt v hs hv => exact { h with lcnt_le := (toNat_ofNat_le _ _).trans hv }

end Sys2Proof.Machine
end

section
/-! Runs (10_state.md R31, 70_reset_and_hazards.md R218, R220, R226): in every reachable state the invariant holds and
the unit has its step, a run ends within `NCMD + 1` steps, and one that ends in `DONE` has taken `CP + 1`. -/

namespace Sys2Proof.Machine

/-! ### Every reachable state -/

/-- A command answers wherever the lengths are legal: the guards of `PACK` and `UNPACK` alone stop
(93_implementation_defined.md U8). -/
theorem exec_answers {s : State} (h : LegalData s) (i : Instr) : ∃ t, exec i s = .next t := by
  cases i with
  | pack => exact ⟨_, if_pos (packCount_le_nReg_iff.2 h.blen_le)⟩
  | unpack => exact ⟨_, if_pos h.lcnt_le⟩
  | wrc csr imm9 =>
    cases csr with
    | blen | lcnt =>
      simp only [exec, execWrc]
      split_ifs <;> exact ⟨_, rfl⟩
    | consumed | state | cause | fcp | fcmd => exact ⟨_, rfl⟩
  | _ => exact ⟨_, rfl⟩

/-- In `RUN` the unit has a next state: the fault entries answer, and so does the command. -/
theorem step_answers {s : State} (h : Invariant s) (hrun : s.state = .run) : ∃ t, step s = .next t := by
  cases hfetch : s.prog[s.cp.toNat]? with
  | none => exact ⟨_, step_of_overrun hrun (List.getElem?_eq_none_iff.1 hfetch)⟩
  | some w =>
    cases hdec : decode w with
    | error c => exact ⟨_, step_of_decode_error hrun hfetch hdec⟩
    | ok i =>
      rw [step_of_decode_ok hrun hfetch hdec]
      exact exec_answers h.legalData i

theorem sysRun_cons_eq_next {e : Event} {es : List Event} {s t : State} :
    sysRun (e :: es) s = .next t ↔ ∃ u, sysStep e s = .next u ∧ sysRun es u = .next t := by
  rw [sysRun]
  cases sysStep e s <;> simp

/-- What every event keeps holds after every sequence of events. -/
theorem sysRun_keeps {P : State → Prop} (hkeeps : ∀ e s t, P s → sysStep e s = .next t → P t) {es : List Event}
    {s t : State} (hs : P s) (h : sysRun es s = .next t) : P t := by
  induction es generalizing s with
  | nil =>
    cases h
    exact hs
  | cons e es ih =>
    obtain ⟨u, hstep, hrest⟩ := sysRun_cons_eq_next.1 h
    exact ih (hkeeps e s u hs hstep) hrest

theorem sysStep_keeps_invariant (e : Event) (s t : State) (h : Invariant s) (hstep : sysStep e s = .next t) :
    Invariant t := by
  cases e with
  | unit => exact stepKeepsInvariant s t h hstep
  | host a => exact hostActionKeepsInvariant a s t h hstep

/-- Settles O20 (93_implementation_defined.md U8): reset meets the invariant and every event keeps it. -/
theorem everyReachableStateIsCoherent : Obligations.EveryReachableStateIsCoherent := by
  intro v b es t h
  have hinv : Invariant t := sysRun_keeps sysStep_keeps_invariant (invariant_resetWith v (Memory.wf_ofBytes b)) h
  exact ⟨hinv, step_answers hinv⟩

/-! ### One step of a run -/

theorem step_prog {s t : State} (h : step s = .next t) : t.prog = s.prog := by
  obtain ⟨-, ⟨-, rfl⟩ | ⟨w, c, -, -, rfl⟩ | ⟨w, i, -, hdec, hexec⟩⟩ := step_cases h
  · rfl
  · rfl
  · obtain ⟨-, hprog, -⟩ := controlRegistersHaveTheirWriters i s t (decode_wellFormed hdec) hexec
    exact hprog

/-- Within a stream of legal length `CP` does not wrap (10_state.md R31). -/
theorem toNat_cp_add_one {s : State} (h : Invariant s) (hcp : s.cp.toNat < s.prog.length) :
    (s.cp + 1#16).toNat = s.cp.toNat + 1 := by
  have hlen : s.prog.length ≤ 65535 := h.prog_le
  have hfits : s.cp.toNat + 1 < 2 ^ 16 := by omega
  rw [BitVec.toNat_add]
  exact Nat.mod_eq_of_lt hfits

/-- How a step moves a run: on to the next command of the stream, to `DONE` at an `END`, or to `FAULT`. -/
theorem step_moves {s t : State} (h : Invariant s) (hstep : step s = .next t) :
    (t.state = .run ∧ s.cp.toNat < s.prog.length ∧ t.cp.toNat = s.cp.toNat + 1) ∨
      (t.state = .done ∧ t.cp = s.cp ∧ ∃ w, s.prog[s.cp.toNat]? = some w ∧ decode w = .ok .endRun) ∨
      t.state = .fault := by
  obtain ⟨hrun, ⟨-, rfl⟩ | ⟨w, c, -, -, rfl⟩ | ⟨w, i, hfetch, hdec, hexec⟩⟩ := step_cases hstep
  · exact .inr (.inr rfl)
  · exact .inr (.inr rfl)
  · have hwf := decode_wellFormed hdec
    have hcp := (exec_effect hwf hexec).cp_eq
    obtain ⟨-, -, -, -, -, hstate⟩ := controlRegistersHaveTheirWriters i s t hwf hexec
    by_cases hend : i = .endRun
    · subst hend
      rw [if_pos rfl] at hcp
      cases hexec
      exact .inr (.inl ⟨rfl, hcp, w, hfetch, hdec⟩)
    · obtain ⟨hlt, -⟩ := List.getElem?_eq_some_iff.1 hfetch
      have hsame : t.state = s.state := not_not.1 fun hne => hend (hstate hne).1
      rw [if_neg hend] at hcp
      exact .inl ⟨hsame.trans hrun, hlt, by rw [hcp, toNat_cp_add_one h hlt]⟩

/-! ### Whole runs -/

theorem runsTo_one {s t : State} (hrun : s.state = .run) (hstep : step s = .next t) : runsTo 1 s t :=
  ⟨hrun, t, hstep, rfl⟩

/-- A state outside `RUN` is the end of its run. -/
theorem runsTo_eq_of_ne_run {k : Nat} {s t : State} (hs : s.state ≠ .run) (h : runsTo k s t) : k = 0 ∧ t = s := by
  cases k with
  | zero => exact ⟨rfl, h⟩
  | succ k =>
    obtain ⟨hrun, -⟩ := h
    exact absurd hrun hs

/-- A run with `n` commands of the stream before it ends within `n + 1` steps: each step but the last leaves one
command less. -/
theorem exists_runsTo_end {n : Nat} {s : State} (h : Invariant s) (hrun : s.state = .run)
    (hn : s.prog.length ≤ s.cp.toNat + n) :
    ∃ k u, k ≤ n + 1 ∧ runsTo k s u ∧ (u.state = .done ∨ u.state = .fault) := by
  induction n generalizing s with
  | zero =>
    obtain ⟨t, hstep⟩ := step_answers h hrun
    refine ⟨1, t, le_rfl, runsTo_one hrun hstep, ?_⟩
    obtain ⟨-, hlt, -⟩ | ⟨hdone, -⟩ | hfault := step_moves h hstep
    · exact absurd hlt (not_lt.2 hn)
    · exact .inl hdone
    · exact .inr hfault
  | succ n ih =>
    obtain ⟨t, hstep⟩ := step_answers h hrun
    obtain ⟨hrun', -, hcp⟩ | ⟨hdone, -⟩ | hfault := step_moves h hstep
    · have hn' : t.prog.length ≤ t.cp.toNat + n := by
        rw [step_prog hstep, hcp]
        omega
      obtain ⟨k, u, hk, hruns, hended⟩ := ih (stepKeepsInvariant s t h hstep) hrun' hn'
      exact ⟨k + 1, u, Nat.succ_le_succ hk, ⟨hrun, t, hstep, hruns⟩, hended⟩
    · exact ⟨1, t, Nat.le_add_left 1 _, runsTo_one hrun hstep, .inl hdone⟩
    · exact ⟨1, t, Nat.le_add_left 1 _, runsTo_one hrun hstep, .inr hfault⟩

/-- Settles O21 (70_reset_and_hazards.md R218): the run begins with `NCMD` commands before it. -/
theorem startedRunEnds : Obligations.StartedRunEnds := by
  refine fun s h => ⟨fun hs => ?_, fun hs => congrArg Host.Outcome.next (startRun_eq_self hs)⟩
  have hne : s.state ≠ .fault := by obtain hs | hs := hs <;> simp [hs]
  obtain ⟨hcause, hfcp, hfcmd⟩ := h.noFault_of_ne_fault hne
  have hinv := invariant_startRun h
  rw [startRun_eq_run hs] at hinv
  have hended := exists_runsTo_end hinv rfl (Nat.le_add_left s.prog.length _)
  exact ⟨_, congrArg Host.Outcome.next (startRun_eq_run hs), rfl, rfl, fun _ => rfl, fun _ => rfl, ⟨rfl, rfl, rfl⟩,
    ⟨rfl, rfl, rfl⟩, hcause, hfcp, hfcmd, rfl, hended⟩

/-- A run that ends in `DONE` has taken one step for each command from its first `CP` to the `END`, which it leaves
`CP` at; the invariant at its end says that no fault is recorded. -/
theorem runsTo_done {k : Nat} {s t : State} (h : Invariant s) (hrun : s.state = .run) (hruns : runsTo k s t)
    (hdone : t.state = .done) :
    s.cp.toNat + k = t.cp.toNat + 1 ∧ EndedSafely t ∧ t.prog = s.prog ∧
      ∃ w, s.prog[t.cp.toNat]? = some w ∧ decode w = .ok .endRun := by
  induction k generalizing s with
  | zero =>
    obtain rfl : t = s := hruns
    cases hrun.symm.trans hdone
  | succ k ih =>
    obtain ⟨-, u, hstep, hrest⟩ := hruns
    have hu := stepKeepsInvariant s u h hstep
    have hprog := step_prog hstep
    obtain ⟨hrun', -, hcp⟩ | ⟨hdone', hcp, hend⟩ | hfault := step_moves h hstep
    · obtain ⟨hk, hsafe, hprog', hend⟩ := ih hu hrun' hrest
      rw [hprog] at hprog' hend
      exact ⟨by omega, hsafe, hprog', hend⟩
    · obtain ⟨rfl, rfl⟩ := runsTo_eq_of_ne_run (by simp [hdone']) hrest
      obtain ⟨hcause, -⟩ := hu.noFault_of_ne_fault (by simp [hdone'])
      rw [← hcp] at hend ⊢
      exact ⟨rfl, ⟨hdone, hcause⟩, hprog, hend⟩
    · obtain ⟨-, rfl⟩ := runsTo_eq_of_ne_run (by simp [hfault]) hrest
      cases hfault.symm.trans hdone

/-- Settles O22 (70_reset_and_hazards.md R220, R226). -/
theorem doneRunTakesCpPlusOneSteps : Obligations.DoneRunTakesCpPlusOneSteps := by
  intro k s t h hcp hrun hruns hdone
  obtain ⟨hk, hrest⟩ := runsTo_done h hrun hruns hdone
  rw [hcp] at hk
  exact ⟨(Nat.zero_add k).symm.trans hk, hrest⟩

end Sys2Proof.Machine
end

section
/-! Overflow without a fault (60_exceptions.md R198): `ADDW` and `ADDS` agree exactly in the lanes that do not overflow,
and `EQ` of the two sums flags them. -/

namespace Sys2Proof.Machine

theorem toNat_laneAddWrap (a b : Byte) : (laneAddWrap a b).toNat = (a.toNat + b.toNat) % 256 := by
  rw [laneAddWrap_eq_add, BitVec.toNat_add]

/-- The wrapped and the saturated sum of two bytes are equal exactly where neither wraps nor clamps. -/
theorem laneAddWrap_eq_laneAddSat_iff {a b : Byte} :
    laneAddWrap a b = laneAddSat a b ↔ a.toNat + b.toNat ≤ 255 := by
  rw [← BitVec.toNat_inj, toNat_laneAddWrap, toNat_laneAddSat]
  omega

/-- `EQ` of the two sums, lane by lane. -/
theorem lane_fEqual_addWrap_addSat (a b : Word) (i : Fin 8) : lane (fEqual (fAddWrap a b) (fAddSat a b)) i
    = if (lane a i).toNat + (lane b i).toNat ≤ 255 then 0x80#8 else 0x00#8 := by
  rw [lane_fEqual, lane_fAddWrap, lane_fAddSat, beq_eq_decide, flagByte_decide]
  simp only [laneAddWrap_eq_laneAddSat_iff]

theorem SameFaultRegs.trans {s t u : State} (hst : SameFaultRegs s t) (htu : SameFaultRegs t u) :
    SameFaultRegs s u := by
  obtain ⟨hcause, hfcp, hfcmd⟩ := hst
  obtain ⟨hcause', hfcp', hfcmd'⟩ := htu
  exact ⟨hcause'.trans hcause, hfcp'.trans hfcp, hfcmd'.trans hfcmd⟩

/-- Settles O47 (60_exceptions.md R198). The first two commands leave `ra`, `rb` and then `rp` as the next ones read
them, and a register write raises nothing. -/
theorem overflowDetectedByCommands : Obligations.OverflowDetectedByCommands := by
  refine ⟨fun ra rb rp rq rd s hpa hpb hqp => ?commands, fun a b i hover => ?overflow⟩
  case commands =>
    obtain ⟨⟨-, heq⟩, -, -, ⟨-, haddw⟩, -, ⟨-, hadds⟩, -⟩ := threeRegisterCommands
    obtain ⟨t, ht, htp, htother, -, -, htstate, htfault, -⟩ := haddw rp ra rb s
    obtain ⟨u, hu, huq, huother, -, -, hustate, hufault, -⟩ := hadds rq ra rb t
    obtain ⟨v, hv, hvd, -, -, -, hvstate, hvfault, -⟩ := heq rd rp rq u
    refine ⟨t, u, v, ht, hu, hv, hvstate.trans (hustate.trans htstate), (htfault.trans hufault).trans hvfault,
      fun i => ?_⟩
    rw [hvd, huq, huother rp hqp.symm, htp, htother ra hpa.symm, htother rb hpb.symm, lane_fEqual_addWrap_addSat]
  case overflow =>
    rw [lane_fAddWrap, lane_fAddSat, toNat_laneAddWrap, toNat_laneAddSat]
    omega

end Sys2Proof.Machine
end
